-- ==== Sys2Proof/Word.lean ====
section
/-! DEFINITION. The two bit-vector types of the machine: a storage cell and a host address.

Every register and every RAM cell is 64 bits wide (10_state.md R20), and the host's view of the engine is
`2^19` bytes (20_memory.md R60). The `w`-bit words of the cipher have a width chosen at run time and are natural
numbers below `2^w`, as the spec defines them (00_scope.md R8, R11, R12); their arithmetic is in
`Sys2Proof/Machine/Arith.lean`. -/

namespace Sys2Proof

/-- A 64-bit register or RAM cell (R20). -/
abbrev Cell := BitVec 64

/-- A 19-bit host byte address: no address lies outside the address space (R60, D19). -/
abbrev Addr := BitVec 19

end Sys2Proof
end

