-- ==== Sys2Proof/Machine/Arith.lean ====
section
/-! DEFINITION. Arithmetic on `w`-bit words, as the spec writes it on natural numbers (00_scope.md R8, R9, R11,
R12). Exclusive or of two words is `^^^` on natural numbers. -/

namespace Sys2Proof.Machine

open Sys2Proof

/-- `word_w(x) = x mod 2^w`: how the engine reads a word from a cell (R9). -/
def wordOf (w : Nat) (x : Cell) : Nat := x.toNat % 2 ^ w

/-- `zext_64(v)`: how the engine writes a word to a cell (R9). -/
def zext64 (v : Nat) : Cell := BitVec.ofNat 64 v

/-- `add_w(a, b) = (a + b) mod 2^w` (R11). -/
def addW (w a b : Nat) : Nat := (a + b) % 2 ^ w

/-- `sub_w(a, b) = (a - b + 2^w) mod 2^w` (R11). -/
def subW (w a b : Nat) : Nat := (a + 2 ^ w - b) % 2 ^ w

/-- `rotl_w(x, n)`: rotation left over exactly `w` bits, the amount reduced modulo `w` (R12). -/
def rotlW (w x n : Nat) : Nat :=
  if n % w = 0 then x else x * 2 ^ (n % w) % 2 ^ w + x / 2 ^ (w - n % w)

/-- `rotr_w(x, n)`: rotation right over exactly `w` bits, the amount reduced modulo `w` (R12). -/
def rotrW (w x n : Nat) : Nat :=
  if n % w = 0 then x else x / 2 ^ (n % w) + x * 2 ^ (w - n % w) % 2 ^ w

end Sys2Proof.Machine
end

