-- ==== Sys2Proof/Machine/Magic.lean ====
section
/-! DEFINITION. The constant generator's functions `P_w` and `Q_w` (40_constant_generator.md R101 to R107). -/

namespace Sys2Proof.Machine

/-- `floor((e - 2) * 2^64)`: row 64 of the table of R107. -/
def expFloor64 : Nat := 13249961062380153450

/-- `floor((φ - 2) * 2^64)`: row 64 of the table of R107. -/
def goldenFloor64 : Int := -7046029254386353131

/-- `xp = floor((e - 2) * 2^w)` for `1 <= w <= 64` (R104): the floor for `w` is the floor for 64 divided by
`2^(64-w)`, rounded down. -/
def magicXp (w : Nat) : Int := (expFloor64 : Int) / 2 ^ (64 - w)

/-- `xq = floor((φ - 2) * 2^w)` for `1 <= w <= 64`, a negative number (R105); the division rounds toward minus
infinity (D7). -/
def magicXq (w : Nat) : Int := goldenFloor64 / 2 ^ (64 - w)

/-- `odd_adjust(x) = x + (1 - (x mod 2))` (R102). -/
def oddAdjust (x : Int) : Int := x + (1 - x % 2)

/-- `odd_adjust_down(x) = x - (1 - (x mod 2))`, with the non-negative residue (R103). -/
def oddAdjustDown (x : Int) : Int := x - (1 - x % 2)

/-- `P_w = odd_adjust(xp) mod 2^w` (R104). -/
def magicP (w : Nat) : Nat := (oddAdjust (magicXp w) % 2 ^ w).toNat

/-- `Q_w = odd_adjust_down(xq) mod 2^w` (R105). -/
def magicQ (w : Nat) : Nat := (oddAdjustDown (magicXq w) % 2 ^ w).toNat

end Sys2Proof.Machine
end

