-- ==== Sys2Proof/Machine/Cipher.lean ====
section
/-! DEFINITION. The cipher's pure functions: the initial fill and the key mix (41_key_schedule.md R115 to R124),
the round transform and its inverse (42_round_transform.md R135, R137), and the message functions
(43_block_codec.md R155). -/

namespace Sys2Proof.Machine

/-- `n` words from `x` on, each the one before it plus `q` (R115). -/
def fillFrom (w q : Nat) : Nat → Nat → List Nat
  | 0, _ => []
  | n + 1, x => x :: fillFrom w q n (addW w x q)

/-- `S0_{w,r}`: `2*(r+1)` words, `S[0] = P_w` and `S[k] = S[k-1] + Q_w` (R115). -/
def initialFill (w r : Nat) : List Nat := fillFrom w (magicQ w) (2 * (r + 1)) (magicP w)

/-- The hidden working state of one key mix (10_state.md R46, R117). -/
structure Mixing where
  /-- The subkey array `S`. -/
  subkeys : List Nat
  /-- The working copy `L` of the key. -/
  keyCopy : List Nat
  a : Nat
  b : Nat
  i : Nat
  j : Nat
  deriving DecidableEq, Repr

/-- The new `A` of one iteration (R117, R118). -/
def mixA (w : Nat) (m : Mixing) : Nat := rotlW w (addW w (addW w (m.subkeys.getD m.i 0) m.a) m.b) 3

/-- The new `B` of one iteration, given the new `A` (R117, R119). -/
def mixB (w a : Nat) (m : Mixing) : Nat :=
  rotlW w (addW w (addW w (m.keyCopy.getD m.j 0) a) m.b) (addW w a m.b)

/-- One iteration of the mix (R117). -/
def mixStep (w : Nat) (m : Mixing) : Mixing :=
  let a := mixA w m
  let b := mixB w a m
  { subkeys := m.subkeys.set m.i a
    keyCopy := m.keyCopy.set m.j b
    a := a
    b := b
    i := (m.i + 1) % m.subkeys.length
    j := (m.j + 1) % m.keyCopy.length }

/-- `n` iterations of the mix. -/
def mixLoop (w : Nat) : Nat → Mixing → Mixing
  | 0, m => m
  | n + 1, m => mixLoop w n (mixStep w m)

/-- The mix before its first iteration: `A = B = i = j = 0` (R117). -/
def mixStart (subkeys key : List Nat) : Mixing :=
  { subkeys := subkeys, keyCopy := key, a := 0, b := 0, i := 0, j := 0 }

/-- `Mix_w(S, K)`: `3 * max(t, c)` iterations, only the final `S` kept (R117, R120). -/
def mixWords (w : Nat) (subkeys key : List Nat) : List Nat :=
  (mixLoop w (3 * max subkeys.length key.length) (mixStart subkeys key)).subkeys

/-- `Build_{w,r}(K) = Mix_w(S0_{w,r}, K)` (R124). -/
def buildWords (w r : Nat) (key : List Nat) : List Nat := mixWords w (initialFill w r) key

/-- Round `i` of encryption: the left half first, then the right half with the new left (R135, R136). -/
def encRound (w : Nat) (sub : List Nat) (i : Nat) (ab : Nat × Nat) : Nat × Nat :=
  let a := addW w (rotlW w (ab.1 ^^^ ab.2) ab.2) (sub.getD (2 * i) 0)
  let b := addW w (rotlW w (ab.2 ^^^ a) a) (sub.getD (2 * i + 1) 0)
  (a, b)

/-- Rounds 1 to `n` of encryption, in that order (R135). -/
def encRounds (w : Nat) (sub : List Nat) : Nat → Nat × Nat → Nat × Nat
  | 0, ab => ab
  | n + 1, ab => encRound w sub (n + 1) (encRounds w sub n ab)

/-- `Enc_{w,r}(a, b, S)` (R135). -/
def encBlockWords (w r : Nat) (sub : List Nat) (ab : Nat × Nat) : Nat × Nat :=
  encRounds w sub r (addW w ab.1 (sub.getD 0 0), addW w ab.2 (sub.getD 1 0))

/-- Round `i` of decryption: the right half undone first, then the left half (R137). -/
def decRound (w : Nat) (sub : List Nat) (i : Nat) (ab : Nat × Nat) : Nat × Nat :=
  let b := rotrW w (subW w ab.2 (sub.getD (2 * i + 1) 0)) ab.1 ^^^ ab.1
  let a := rotrW w (subW w ab.1 (sub.getD (2 * i) 0)) b ^^^ b
  (a, b)

/-- Rounds `n` down to 1 of decryption, in that order (R137). -/
def decRounds (w : Nat) (sub : List Nat) : Nat → Nat × Nat → Nat × Nat
  | 0, ab => ab
  | n + 1, ab => decRounds w sub n (decRound w sub (n + 1) ab)

/-- The two subtractions that end decryption (R137). -/
def decWhiten (w : Nat) (sub : List Nat) (ab : Nat × Nat) : Nat × Nat :=
  (subW w ab.1 (sub.getD 0 0), subW w ab.2 (sub.getD 1 0))

/-- `Dec_{w,r}(a, b, S)` (R137). -/
def decBlockWords (w r : Nat) (sub : List Nat) (ab : Nat × Nat) : Nat × Nat :=
  decWhiten w sub (decRounds w sub r ab)

/-- A function of blocks applied to each consecutive pair of words, in order (R155). An odd last word, which no
command reaches (R184), stands. -/
def mapBlocks (f : Nat × Nat → Nat × Nat) : List Nat → List Nat
  | a :: b :: rest => (f (a, b)).1 :: (f (a, b)).2 :: mapBlocks f rest
  | [a] => [a]
  | [] => []

/-- `EncMsg_{w,r}(M, S)` (R155). -/
def encMsgWords (w r : Nat) (sub msg : List Nat) : List Nat := mapBlocks (encBlockWords w r sub) msg

/-- `DecMsg_{w,r}(C, S)` (R155). -/
def decMsgWords (w r : Nat) (sub msg : List Nat) : List Nat := mapBlocks (decBlockWords w r sub) msg

end Sys2Proof.Machine
end

