-- ==== Sys2Proof/Config.lean ====
section
/-! DEFINITION. What is fixed when the engine is built, and the values the spec leaves open.

The build-time parameters (00_scope.md R6) are plain data; a state carries its own, so that a claim about every
state is a claim about every choice of parameters. The free values are opaque constants: nothing in Lean can say
what they are, so a claim holds whatever they are. -/

namespace Sys2Proof

/-- The four build-time parameters (R6). `Params.wellFormed` gives their legal ranges. -/
structure Params where
  /-- The largest word width a command may use. -/
  wmax : Nat
  /-- The largest round count. -/
  rmax : Nat
  /-- The size of the key RAM in cells. -/
  kmax : Nat
  /-- The size of the message RAM in cells. -/
  mmax : Nat
  deriving DecidableEq, Repr

/-- The defaults of R6. -/
def Params.default : Params := { wmax := 64, rmax := 255, kmax := 256, mmax := 1024 }

/-- `SMAX = 2*(RMAX+1)`, the size of the S RAM in cells (R6). -/
def Params.smax (p : Params) : Nat := 2 * (p.rmax + 1)

/-- One event of the outside world or of the engine (00_scope.md R5, 20_memory.md R71, 70_reset_and_hazards.md
R210). The order of a list of turns is the interleaving (assumption log 5). -/
inductive Turn where
  /-- The engine takes its step, if it has one (44_control.md R176). -/
  | engine
  /-- `MemRead(a, 8)` by the host (R10). -/
  | read (a : Addr)
  /-- `MemWrite(a, 8, v)` by the host (R10). -/
  | write (a : Addr) (v : Cell)
  /-- The reset input is asserted (R210). -/
  | reset
  deriving DecidableEq, Repr

/-- The three RAMs (R39, R40, R41). -/
inductive RamId where
  | key
  | sub
  | msg
  deriving DecidableEq, Repr

namespace Config

/-- The constant of the ID register (R23). -/
def idValue : Cell := 0x524335454E473031#64

/-- FREE VALUE (R48, U1, assumption log 1): what cell `i` of a RAM holds from power-on until it is written. -/
opaque unwrittenCell : RamId → Nat → Cell

/-- FREE VALUE (R210, U3, assumption log 2): what cell `i` of the S or MSG RAM holds after a reset that ended a
command which could write it; the first number is the draw of that reset. -/
opaque lostCell : RamId → Nat → Nat → Cell

/-- FREE VALUE (R69, U4, assumption log 3): what a host read of an undefined target returns while `BUSY = 1`;
each such read has a draw of its own. -/
opaque busyRead : Nat → Cell

/-- FREE VALUE (R45, R48, U7, assumption log 4): `CUR_CMD` after a reset, by the draw of that reset. -/
opaque hiddenCurCmd : Nat → Cell

/-- FREE VALUE (R45, R48, U7, assumption log 4): `SNAP` after a reset, by the draw of that reset. -/
opaque hiddenSnap : Nat → Cell

/-- FREE VALUE (R228, U5, assumption log 5): batch `n` of the events that fall before an engine's turn: any finite
list of host accesses, or of resets. -/
opaque hostTurns : Nat → List Turn

end Config

end Sys2Proof
end

