-- ==== Sys2Proof/Machine/State.lean ====
section
/-! DEFINITION. Everything the spec gives the machine, as plain data (10_state.md R20 to R48), and the state right
after power-on reset. -/

namespace Sys2Proof.Machine

open Sys2Proof

/-- One RAM: the cells written since power-on, as (index, value) pairs with strictly rising indices. An index that
is not listed has never been written (assumption log 1). -/
abbrev Memory := List (Nat × Cell)

/-- The codes of STATUS.ERR (60_exceptions.md R180). `codeOf` in Machine/Flags.lean gives their numbers. -/
inductive ErrCode where
  /-- 0: the command completed without error. -/
  | ok
  /-- 1: captured MLEN is odd. -/
  | invalidMessageLength
  /-- 2: captured KLEN is 0. -/
  | invalidKey
  /-- 3: the command word is illegal. -/
  | illegalCommand
  /-- 4: captured WIDTH is 0 or above WMAX. -/
  | badWidth
  /-- 5: captured ROUNDS is above RMAX. -/
  | badRounds
  /-- 6: captured KLEN is above KMAX. -/
  | keyTooLong
  /-- 7: captured MLEN is above MMAX. -/
  | messageTooLong
  /-- 8: SCHED.STATE is not the one the command needs. -/
  | noSchedule
  deriving DecidableEq, Repr

/-- SCHED.STATE (R36, R37): value 3 never occurs. -/
inductive SchedState where
  | empty
  | init
  | ready
  deriving DecidableEq, Repr

/-- The STATUS register's stored fields (R27). STATUS.IRQ is computed (R31). -/
structure Status where
  busy : Bool
  done : Bool
  wovr : Bool
  err : ErrCode
  lastop : BitVec 8
  deriving DecidableEq, Repr

/-- The SCHED register's fields (R36). -/
structure Sched where
  state : SchedState
  mvalid : Bool
  mw : BitVec 7
  sw : BitVec 7
  sr : BitVec 8
  deriving DecidableEq, Repr

/-- What follows when the listed turns are used up: one finite batch of turns after another, without end, the engine
having its turn between two batches (70_reset_and_hazards.md R228, assumption log 5). -/
inductive Later where
  /-- The same batch every time. -/
  | again (batch : List Turn)
  /-- Batch `n` of the free sequence of batches, then batch `n + 1`, and so on. -/
  | free (n : Nat)
  deriving DecidableEq, Repr

/-- The state of the machine. The first part is the spec's; `turns`, `later`, `readData` and
`draws` are the model's own. -/
structure State where
  /-- The build-time parameters, constant for a machine; they are what PARAMS reports (R6, R23). -/
  params : Params
  /-- CTRL.IE (R24). -/
  ie : Bool
  /-- CFG; its reserved bits are kept at 0 (R25). -/
  cfg : Cell
  /-- STATUS (R27). -/
  status : Status
  /-- MAGIC_P (R34). -/
  magicP : Cell
  /-- MAGIC_Q (R35). -/
  magicQ : Cell
  /-- SCHED (R36). -/
  sched : Sched
  /-- DATA_L (R38). -/
  dataL : Cell
  /-- DATA_R (R38). -/
  dataR : Cell
  /-- The KEY RAM (R39). -/
  keyRam : Memory
  /-- The S RAM (R40). -/
  sRam : Memory
  /-- The MSG RAM (R41). -/
  msgRam : Memory
  /-- The hidden `CUR_CMD` (R45). -/
  curCmd : Cell
  /-- The hidden `SNAP`, the captured CFG (R45). -/
  snap : Cell
  /-- The model's own: what happens next, in order; when it is empty the engine has the turn. -/
  turns : List Turn
  /-- The model's own: the turns after those, batch by batch. -/
  later : Later
  /-- The model's own: the value the last host read returned, `none` before the first. -/
  readData : Option Cell
  /-- The model's own: how many draws of free values have been made. -/
  draws : Nat
  deriving DecidableEq, Repr

/-- No access and no command ever faults (60_exceptions.md R186), so there is no fault to raise: the type is empty,
which is exact (neither safe nor unsafe). Raised by nothing. -/
inductive Fault where
  deriving DecidableEq, Repr

/-- Why `exec` gives an instruction no meaning. -/
inductive Refusal where
  /-- Raised by an arm of `exec` for an instruction the model gives no meaning yet; safe. No arm raises it. -/
  | notModelled (mnemonic : String)
  deriving DecidableEq, Repr

/-- STATUS after reset (R27, R211). -/
def Status.atReset : Status :=
  { busy := false, done := false, wovr := false, err := .ok, lastop := 0#8 }

/-- SCHED after reset (R36, R211). -/
def Sched.atReset : Sched :=
  { state := .empty, mvalid := false, mw := 0#7, sw := 0#7, sr := 0#8 }

/-- The machine with parameters `p` right after power-on reset (R48, R211): every register field at 0, no RAM cell
written, the hidden registers at free values (log 4), no event listed, and a free host after it (log 5). -/
def State.powerOn (p : Params) : State :=
  { params := p
    ie := false
    cfg := 0#64
    status := Status.atReset
    magicP := 0#64
    magicQ := 0#64
    sched := Sched.atReset
    dataL := 0#64
    dataR := 0#64
    keyRam := []
    sRam := []
    msgRam := []
    curCmd := Config.hiddenCurCmd 0
    snap := Config.hiddenSnap 0
    turns := []
    later := .free 0
    readData := none
    draws := 1 }

/-- The machine right after reset, with the default parameters of R6. -/
def State.reset : State := State.powerOn Params.default

end Sys2Proof.Machine
end

