-- ==== Sys2Proof/Machine/Operands.lean ====
section
/-! DEFINITION. Where a command's operands come from (30_encoding.md R83, R84): the captured CFG, the SCHED
register, and the low `w` bits of RAM cells (10_state.md R39 to R41). -/

namespace Sys2Proof.Machine

open Sys2Proof

/-- The WIDTH field `[6:0]` of a CFG value (R25). -/
def cfgWidth (v : Cell) : BitVec 7 := v.extractLsb' 0 7

/-- The ROUNDS field `[15:8]` of a CFG value (R25). -/
def cfgRounds (v : Cell) : BitVec 8 := v.extractLsb' 8 8

/-- The KLEN field `[31:16]` of a CFG value (R25). -/
def cfgKlen (v : Cell) : BitVec 16 := v.extractLsb' 16 16

/-- The MLEN field `[47:32]` of a CFG value (R25). -/
def cfgMlen (v : Cell) : BitVec 16 := v.extractLsb' 32 16

/-- `w = SNAP[6:0]` (R84). -/
def State.snapW (s : State) : Nat := (cfgWidth s.snap).toNat

/-- `r = SNAP[15:8]` (R84). -/
def State.snapR (s : State) : Nat := (cfgRounds s.snap).toNat

/-- `c = SNAP[31:16]` (R84). -/
def State.snapC (s : State) : Nat := (cfgKlen s.snap).toNat

/-- `m = SNAP[47:32]` (R84). -/
def State.snapM (s : State) : Nat := (cfgMlen s.snap).toNat

/-- `w = SCHED.SW`, for a command on the stored schedule (R84). -/
def State.schedW (s : State) : Nat := s.sched.sw.toNat

/-- `r = SCHED.SR`, for a command on the stored schedule (R84). -/
def State.schedR (s : State) : Nat := s.sched.sr.toNat

/-- `t = 2*(r+1)`, the length of a subkey array of `r` rounds (R7). -/
def subkeyCount (r : Nat) : Nat := 2 * (r + 1)

/-- The cell a RAM lists at an index, `none` where it lists nothing. -/
def Memory.read? : Memory → Nat → Option Cell
  | [], _ => none
  | (j, x) :: rest, i => if i = j then some x else Memory.read? rest i

/-- The value of a RAM cell: what was last written to it, else its free power-on value (R48, log 1). -/
def Memory.cell (ram : RamId) (m : Memory) (i : Nat) : Cell :=
  (m.read? i).getD (Config.unwrittenCell ram i)

/-- `KEY[i]` (R39). -/
def State.keyCell (s : State) (i : Nat) : Cell := Memory.cell .key s.keyRam i

/-- `S[i]` (R40). -/
def State.subCell (s : State) (i : Nat) : Cell := Memory.cell .sub s.sRam i

/-- `MSG[i]` (R41). -/
def State.msgCell (s : State) (i : Nat) : Cell := Memory.cell .msg s.msgRam i

/-- `K[j] = word_w(KEY[j])` for `j < c` (R39). -/
def State.keyWords (s : State) (w c : Nat) : List Nat :=
  (List.range c).map fun j => wordOf w (s.keyCell j)

/-- `word_w(S[k])` for `k < t` (R40). -/
def State.subWords (s : State) (w t : Nat) : List Nat :=
  (List.range t).map fun k => wordOf w (s.subCell k)

/-- `M[k] = word_w(MSG[k])` for `k < m` (R41). -/
def State.msgWords (s : State) (w m : Nat) : List Nat :=
  (List.range m).map fun k => wordOf w (s.msgCell k)

end Sys2Proof.Machine
end

