-- ==== Sys2Proof/Machine/Flags.lean ====
section
/-! DEFINITION. STATUS: its codes and layout, the interrupt level, write-1-to-clear, what a command's start and
completion do to it (10_state.md R27 to R33), and the checks a command makes (60_exceptions.md R180, R184). -/

namespace Sys2Proof.Machine

open Sys2Proof

/-- The number of an error code (R180). -/
def codeOf : ErrCode → BitVec 8
  | .ok => 0#8
  | .invalidMessageLength => 1#8
  | .invalidKey => 2#8
  | .illegalCommand => 3#8
  | .badWidth => 4#8
  | .badRounds => 5#8
  | .keyTooLong => 6#8
  | .messageTooLong => 7#8
  | .noSchedule => 8#8

/-- The `irq` output and STATUS.IRQ: `STATUS.DONE AND CTRL.IE` (R31). -/
def State.irq (s : State) : Bool := s.status.done && s.ie

/-- STATUS as the host reads it (R27). -/
def State.statusWord (s : State) : Cell :=
  0#40 ++ s.status.lastop ++ codeOf s.status.err ++ 0#4 ++ BitVec.ofBool s.irq ++
    BitVec.ofBool s.status.wovr ++ BitVec.ofBool s.status.done ++ BitVec.ofBool s.status.busy

/-- A host write of `v` to STATUS clears DONE where bit 1 is 1 and WOVR where bit 2 is 1 (R27, R29, R30). -/
def Status.hostWrite (v : Cell) (st : Status) : Status :=
  { st with done := st.done && !v.getLsbD 1, wovr := st.wovr && !v.getLsbD 2 }

/-- STATUS at the start of the command of word `v` (44_control.md R170). -/
def Status.start (v : Cell) (st : Status) : Status :=
  { st with busy := true, done := false, err := .ok, lastop := v.extractLsb' 0 8 }

/-- STATUS at the completion of a command with error code `e` (44_control.md R176). -/
def Status.finish (e : ErrCode) (st : Status) : Status :=
  { st with busy := false, done := true, err := e }

/-- `w == 0 or w > WMAX` on the captured width (R180, code 4). -/
def State.badWidth (s : State) : Bool := decide (s.snapW = 0 ∨ s.params.wmax < s.snapW)

/-- `r > RMAX` on the captured round count (R180, code 5). -/
def State.badRounds (s : State) : Bool := decide (s.params.rmax < s.snapR)

/-- `c == 0` on the captured key length (R180, code 2). -/
def State.emptyKey (s : State) : Bool := decide (s.snapC = 0)

/-- `c > KMAX` on the captured key length (R180, code 6). -/
def State.longKey (s : State) : Bool := decide (s.params.kmax < s.snapC)

/-- `m mod 2 != 0` on the captured message length (R180, code 1). -/
def State.oddMessage (s : State) : Bool := decide (s.snapM % 2 ≠ 0)

/-- `m > MMAX` on the captured message length (R180, code 7). -/
def State.longMessage (s : State) : Bool := decide (s.params.mmax < s.snapM)

/-- SCHED.STATE is not `want` (R180, code 8). -/
def State.schedNot (s : State) (want : SchedState) : Bool := decide (s.sched.state ≠ want)

/-- The first error that applies, in the order of the list (R184). -/
def firstError : List (Bool × ErrCode) → Option ErrCode
  | [] => none
  | (applies, e) :: rest => if applies then some e else firstError rest

end Sys2Proof.Machine
end

