-- ==== Sys2Proof/Machine/Ops.lean ====
section
/-! DEFINITION. The operations every meaning shares: writing RAM cells, writing the magic pair and the schedule
registers, and the start and the completion of a command (44_control.md R170, R176).

The engine has no trap entry and no trap return (60_exceptions.md R187, R188): what it does at an error is its
completion with an error code, `finishWith` below. -/

namespace Sys2Proof.Machine

open Sys2Proof

/-- Write one RAM cell, keeping the indices strictly rising. -/
def Memory.write : Memory → Nat → Cell → Memory
  | [], i, v => [(i, v)]
  | (j, x) :: rest, i, v =>
    if i < j then (i, v) :: (j, x) :: rest
    else if i = j then (i, v) :: rest
    else (j, x) :: Memory.write rest i v

/-- Write consecutive RAM cells from an index on. -/
def Memory.writeFrom : Memory → Nat → List Cell → Memory
  | m, _, [] => m
  | m, i, v :: vs => Memory.writeFrom (m.write i v) (i + 1) vs

/-- The canonical form of a RAM: indices strictly rising. Every entry differs from what an unlisted index holds,
which is "never written" (assumption log 1), so equal memories are equal lists. -/
abbrev Memory.wf (m : Memory) : Prop := m.Pairwise fun x y => x.1 < y.1

/-- `for k in 0..t-1: S[k] <- zext_64(ws[k])`. -/
def State.writeSub (ws : List Nat) (s : State) : State :=
  { s with sRam := s.sRam.writeFrom 0 (ws.map zext64) }

/-- `for k in 0..m-1: MSG[k] <- zext_64(ws[k])`. -/
def State.writeMsg (ws : List Nat) (s : State) : State :=
  { s with msgRam := s.msgRam.writeFrom 0 (ws.map zext64) }

/-- Write the magic pair of width `w`, SCHED.MW and SCHED.MVALID (R108, R109). -/
def State.writeMagic (w : Nat) (s : State) : State :=
  { s with
    magicP := zext64 (Sys2Proof.Machine.magicP w)
    magicQ := zext64 (Sys2Proof.Machine.magicQ w)
    sched := { s.sched with mw := BitVec.ofNat 7 w, mvalid := true } }

/-- Write SCHED.SW, SCHED.SR and SCHED.STATE (R116, R126). -/
def State.writeSched (w r : Nat) (st : SchedState) (s : State) : State :=
  { s with sched := { s.sched with sw := BitVec.ofNat 7 w, sr := BitVec.ofNat 8 r, state := st } }

/-- Write SCHED.STATE alone (R121). -/
def State.writeSchedState (st : SchedState) (s : State) : State :=
  { s with sched := { s.sched with state := st } }

/-- Write the block registers, zero-extended (R38). -/
def State.writeBlock (ab : Nat × Nat) (s : State) : State :=
  { s with dataL := zext64 ab.1, dataR := zext64 ab.2 }

/-- Everything a schedule build writes: the subkeys, the magic pair and all of SCHED (R116, R126, R156). -/
def State.writeSchedule (w r : Nat) (ws : List Nat) (st : SchedState) (s : State) : State :=
  ((s.writeSub ws).writeMagic w).writeSched w r st

/-- The end of a command: STATUS takes the code, BUSY falls, DONE rises (R176). -/
def State.complete (e : ErrCode) (s : State) : State :=
  { s with status := s.status.finish e }

/-- Command completion (R173, R176): the first error that applies, with none of the command's writes (R175), or
no error and all of them. -/
def finishWith (checks : List (Bool × ErrCode)) (written s : State) :
    Host.Outcome State Fault Refusal :=
  match firstError checks with
  | some e => .next (s.complete e)
  | none => .next (written.complete .ok)

/-- Command start: what a host write of `v` to CMD does while the engine is idle (R170). -/
def State.startCommand (v : Cell) (s : State) : State :=
  { s with curCmd := v, snap := s.cfg, status := s.status.start v }

end Sys2Proof.Machine
end

