-- ==== Sys2Proof/Machine/KeySchedule.lean ====
section
/-! DEFINITION. The meanings of INIT_SUBKEYS, MIX_KEY and BUILD_SCHEDULE (41_key_schedule.md R116, R121, R126). -/

namespace Sys2Proof.Machine

/-- INIT_SUBKEYS (R116): the initial fill of the captured width and round count. -/
def execInitSubkeys (s : State) : Host.Outcome State Fault Refusal :=
  finishWith [(s.badWidth, .badWidth), (s.badRounds, .badRounds)]
    (s.writeSchedule s.snapW s.snapR (initialFill s.snapW s.snapR) .init) s

/-- The subkeys MIX_KEY leaves: the stored array of width SCHED.SW and SCHED.SR rounds, mixed with the key (R121). -/
def State.mixedSub (s : State) : List Nat :=
  mixWords s.schedW (s.subWords s.schedW (subkeyCount s.schedR)) (s.keyWords s.schedW s.snapC)

/-- MIX_KEY (R121): mix the key into the initial fill held in the S RAM. -/
def execMixKey (s : State) : Host.Outcome State Fault Refusal :=
  finishWith [(s.schedNot .init, .noSchedule), (s.emptyKey, .invalidKey), (s.longKey, .keyTooLong)]
    ((s.writeSub s.mixedSub).writeSchedState .ready) s

/-- `Build_{w,r}(K)` of the captured CFG and the KEY RAM (R126, R156). -/
def State.builtSub (s : State) : List Nat :=
  buildWords s.snapW s.snapR (s.keyWords s.snapW s.snapC)

/-- BUILD_SCHEDULE (R126): the initial fill and the mix in one command. -/
def execBuildSchedule (s : State) : Host.Outcome State Fault Refusal :=
  finishWith
    [(s.badWidth, .badWidth), (s.badRounds, .badRounds), (s.emptyKey, .invalidKey), (s.longKey, .keyTooLong)]
    (s.writeSchedule s.snapW s.snapR s.builtSub .ready) s

end Sys2Proof.Machine
end

