-- ==== Sys2Proof/Machine/BlockCodec.lean ====
section
/-! DEFINITION. The meanings of ENC_MSG and DEC_MSG (43_block_codec.md R156, R158). -/

namespace Sys2Proof.Machine

/-- The checks of a message command, in order (R156, 60_exceptions.md R184). -/
def State.messageChecks (s : State) : List (Bool × ErrCode) :=
  [(s.badWidth, .badWidth), (s.badRounds, .badRounds), (s.oddMessage, .invalidMessageLength),
   (s.longMessage, .messageTooLong), (s.emptyKey, .invalidKey), (s.longKey, .keyTooLong)]

/-- What a message command with result `out` writes: the message, then the schedule it built (R156). -/
def State.writeMessageResult (out : List Nat) (s : State) : State :=
  (s.writeMsg out).writeSchedule s.snapW s.snapR s.builtSub .ready

/-- ENC_MSG (R156): build the schedule and encrypt the message in place. -/
def execEncMsg (s : State) : Host.Outcome State Fault Refusal :=
  finishWith s.messageChecks
    (s.writeMessageResult (encMsgWords s.snapW s.snapR s.builtSub (s.msgWords s.snapW s.snapM))) s

/-- DEC_MSG (R158): build the schedule and decrypt the message in place. -/
def execDecMsg (s : State) : Host.Outcome State Fault Refusal :=
  finishWith s.messageChecks
    (s.writeMessageResult (decMsgWords s.snapW s.snapR s.builtSub (s.msgWords s.snapW s.snapM))) s

end Sys2Proof.Machine
end

