-- ==== Sys2Proof/Machine/Control.lean ====
section
/-! DEFINITION. The meaning of NOP and the completion of an illegal command (44_control.md R171, R172). -/

namespace Sys2Proof.Machine

/-- NOP (R171): no check, no write. -/
def execNop (s : State) : Host.Outcome State Fault Refusal := finishWith [] s s

/-- An illegal command word completes with ILLEGAL_COMMAND and no other effect (R172). -/
def execIllegal (s : State) : Host.Outcome State Fault Refusal :=
  finishWith [(true, .illegalCommand)] s s

end Sys2Proof.Machine
end

