-- ==== Sys2Proof/Machine/Generator.lean ====
section
/-! DEFINITION. The meaning of GEN_MAGIC (40_constant_generator.md R108). -/

namespace Sys2Proof.Machine

/-- GEN_MAGIC (R108): check the captured width, then write the magic pair of that width. -/
def execGenMagic (s : State) : Host.Outcome State Fault Refusal :=
  finishWith [(s.badWidth, .badWidth)] (s.writeMagic s.snapW) s

end Sys2Proof.Machine
end

