-- ==== Sys2Proof/Machine/RoundTransform.lean ====
section
/-! DEFINITION. The meanings of ENC_BLOCK and DEC_BLOCK (42_round_transform.md R140, R142). -/

namespace Sys2Proof.Machine

/-- The block in DATA_L and DATA_R, as words of width SCHED.SW (R38). -/
def State.blockWords (s : State) : Nat × Nat := (wordOf s.schedW s.dataL, wordOf s.schedW s.dataR)

/-- The stored schedule, as words of width SCHED.SW (R140). -/
def State.storedSub (s : State) : List Nat := s.subWords s.schedW (subkeyCount s.schedR)

/-- ENC_BLOCK (R140): encrypt the block registers in place with the stored schedule. -/
def execEncBlock (s : State) : Host.Outcome State Fault Refusal :=
  finishWith [(s.schedNot .ready, .noSchedule)]
    (s.writeBlock (encBlockWords s.schedW s.schedR s.storedSub s.blockWords)) s

/-- DEC_BLOCK (R142): decrypt the block registers in place with the stored schedule. -/
def execDecBlock (s : State) : Host.Outcome State Fault Refusal :=
  finishWith [(s.schedNot .ready, .noSchedule)]
    (s.writeBlock (decBlockWords s.schedW s.schedR s.storedSub s.blockWords)) s

end Sys2Proof.Machine
end

