-- ==== Sys2Proof/Syntax.lean ====
section
/-! DEFINITION. The commands of the engine: one constructor per row of the opcode map (30_encoding.md R82).

No command has a register-number or immediate field (R83), so no constructor has an argument. -/

namespace Sys2Proof

/-- The nine defined commands (R82). -/
inductive Instr where
  /-- NOP, opcode 0x00 (44_control.md R171). -/
  | nop
  /-- GEN_MAGIC, opcode 0x01 (40_constant_generator.md R108). -/
  | genMagic
  /-- INIT_SUBKEYS, opcode 0x02 (41_key_schedule.md R116). -/
  | initSubkeys
  /-- MIX_KEY, opcode 0x03 (41_key_schedule.md R121). -/
  | mixKey
  /-- BUILD_SCHEDULE, opcode 0x04 (41_key_schedule.md R126). -/
  | buildSchedule
  /-- ENC_BLOCK, opcode 0x05 (42_round_transform.md R140). -/
  | encBlock
  /-- DEC_BLOCK, opcode 0x06 (42_round_transform.md R142). -/
  | decBlock
  /-- ENC_MSG, opcode 0x07 (43_block_codec.md R156). -/
  | encMsg
  /-- DEC_MSG, opcode 0x08 (43_block_codec.md R158). -/
  | decMsg
  deriving DecidableEq, Repr

end Sys2Proof
end

