-- ==== Sys2Proof/Machine/Dispatch.lean ====
section
/-! DEFINITION. What the completion of each command does: one arm per row of the opcode map (30_encoding.md R82). -/

namespace Sys2Proof.Machine

open Sys2Proof

def exec (i : Instr) (s : State) : Host.Outcome State Fault Refusal :=
  match i with
  | .nop => Sys2Proof.Machine.execNop s
  | .genMagic => Sys2Proof.Machine.execGenMagic s
  | .initSubkeys => Sys2Proof.Machine.execInitSubkeys s
  | .mixKey => Sys2Proof.Machine.execMixKey s
  | .buildSchedule => Sys2Proof.Machine.execBuildSchedule s
  | .encBlock => Sys2Proof.Machine.execEncBlock s
  | .decBlock => Sys2Proof.Machine.execDecBlock s
  | .encMsg => Sys2Proof.Machine.execEncMsg s
  | .decMsg => Sys2Proof.Machine.execDecMsg s

end Sys2Proof.Machine
end

