-- ==== Sys2Proof/Machine/HostBus.lean ====
section
/-! DEFINITION. The host's reads and writes: the address map, the layout of each register, write side effects and
the busy window (20_memory.md R60 to R70, 10_state.md R23 to R38). -/

namespace Sys2Proof.Machine

open Sys2Proof

/-- What a host address reaches (R63). -/
inductive Target where
  | id
  | params
  | ctrl
  | cfg
  | cmd
  | status
  | magicP
  | magicQ
  | sched
  | dataL
  | dataR
  | key (i : Nat)
  | sub (i : Nat)
  | msg (i : Nat)
  | reserved
  deriving DecidableEq, Repr

/-- The target of register slot `n`, at byte address `8*n` (R63). -/
def registerTarget (n : Nat) : Target :=
  match n with
  | 0 => .id
  | 1 => .params
  | 2 => .ctrl
  | 3 => .cfg
  | 4 => .cmd
  | 5 => .status
  | 6 => .magicP
  | 7 => .magicQ
  | 8 => .sched
  | 9 => .dataL
  | 10 => .dataR
  | _ => .reserved

/-- Address decode (R63, R64, R65). Dividing by 8 ignores address bits [2:0] (R61). -/
def targetOf (p : Params) (a : Addr) : Target :=
  let n := a.toNat
  if n < 0x10000 then registerTarget (n / 8)
  else if n < 0x20000 then
    if (n - 0x10000) / 8 < p.kmax then .key ((n - 0x10000) / 8) else .reserved
  else if n < 0x30000 then
    if (n - 0x20000) / 8 < p.smax then .sub ((n - 0x20000) / 8) else .reserved
  else if n < 0x40000 then .reserved
  else if (n - 0x40000) / 8 < p.mmax then .msg ((n - 0x40000) / 8) else .reserved

/-- PARAMS as the host reads it (R23). -/
def paramsWord (p : Params) : Cell :=
  0#16 ++ BitVec.ofNat 16 p.mmax ++ BitVec.ofNat 16 p.kmax ++ BitVec.ofNat 8 p.rmax ++ 0#1 ++
    BitVec.ofNat 7 p.wmax

/-- The number of a schedule state (R36). -/
def schedStateCode : SchedState → BitVec 2
  | .empty => 0#2
  | .init => 1#2
  | .ready => 2#2

/-- SCHED as the host reads it (R36). -/
def schedWord (d : Sched) : Cell :=
  0#32 ++ d.sr ++ 0#1 ++ d.sw ++ 0#1 ++ d.mw ++ 0#5 ++ BitVec.ofBool d.mvalid ++ schedStateCode d.state

/-- The writable bits of CFG: all but bit 7 and [63:48], which read 0 (R25). -/
def cfgMask : Cell := 0x0000FFFFFFFFFF7F#64

/-- The value a host read returns where it is defined (R63, R65, R69). -/
def State.readTarget (s : State) : Target → Cell
  | .id => Config.idValue
  | .params => paramsWord s.params
  | .ctrl => 0#63 ++ BitVec.ofBool s.ie
  | .cfg => s.cfg
  | .cmd => 0#64
  | .status => s.statusWord
  | .magicP => s.magicP
  | .magicQ => s.magicQ
  | .sched => schedWord s.sched
  | .dataL => s.dataL
  | .dataR => s.dataR
  | .key i => s.keyCell i
  | .sub i => s.subCell i
  | .msg i => s.msgCell i
  | .reserved => 0#64

/-- The targets whose reads are unspecified while BUSY = 1 (R69). -/
def hiddenWhileBusy : Target → Bool
  | .magicP => true
  | .magicQ => true
  | .sched => true
  | .dataL => true
  | .dataR => true
  | .sub _ => true
  | .msg _ => true
  | .id => false
  | .params => false
  | .ctrl => false
  | .cfg => false
  | .cmd => false
  | .status => false
  | .key _ => false
  | .reserved => false

/-- One host read (R10, R70): its value goes to `readData`. A read that is unspecified while BUSY = 1 takes a free
value of its own (R69). -/
def State.hostRead (a : Addr) (s : State) : State :=
  let x := targetOf s.params a
  if s.status.busy && hiddenWhileBusy x then
    { s with readData := some (Config.busyRead s.draws), draws := s.draws + 1 }
  else { s with readData := some (s.readTarget x) }

/-- The targets whose writes are dropped while BUSY = 1 (R68). -/
def droppedWhileBusy : Target → Bool
  | .cfg => true
  | .cmd => true
  | .dataL => true
  | .dataR => true
  | .key _ => true
  | .msg _ => true
  | .id => false
  | .params => false
  | .ctrl => false
  | .status => false
  | .magicP => false
  | .magicQ => false
  | .sched => false
  | .sub _ => false
  | .reserved => false

/-- A write that takes effect: RW fields take the written bits, W1C fields are cleared, a write to CMD starts a
command, and a write to a read-only or reserved target is ignored (R62, R63, R65, R70). -/
def State.writeTarget (v : Cell) (s : State) : Target → State
  | .ctrl => { s with ie := v.getLsbD 0 }
  | .cfg => { s with cfg := v &&& cfgMask }
  | .cmd => s.startCommand v
  | .status => { s with status := s.status.hostWrite v }
  | .dataL => { s with dataL := v }
  | .dataR => { s with dataR := v }
  | .key i => { s with keyRam := s.keyRam.write i v }
  | .msg i => { s with msgRam := s.msgRam.write i v }
  | .id => s
  | .params => s
  | .magicP => s
  | .magicQ => s
  | .sched => s
  | .sub _ => s
  | .reserved => s

/-- A dropped write sets the sticky STATUS.WOVR and nothing else (R30, R68). -/
def State.dropWrite (s : State) : State :=
  { s with status := { s.status with wovr := true } }

/-- One host write (R10, R68). -/
def State.hostWrite (a : Addr) (v : Cell) (s : State) : State :=
  let x := targetOf s.params a
  if s.status.busy && droppedWhileBusy x then s.dropWrite else s.writeTarget v x

end Sys2Proof.Machine
end

