-- ==== Sys2Proof/WellFormed.lean ====
section
/-! DEFINITION. What makes an instruction, a command word and a choice of build-time parameters well formed. -/

namespace Sys2Proof

/-- A command has no operand field that could be out of range (30_encoding.md R83): each of the nine is well
formed. Operands are checked when the command runs (60_exceptions.md R184), with an error code. -/
def Instr.wellFormed : Instr → Bool
  | .nop => true
  | .genMagic => true
  | .initSubkeys => true
  | .mixKey => true
  | .buildSchedule => true
  | .encBlock => true
  | .decBlock => true
  | .encMsg => true
  | .decMsg => true

/-- The RES bits `[63:8]` of a command word (R80). -/
def commandReserved (v : Cell) : BitVec 56 := v.extractLsb' 8 56

/-- The OPC bits `[7:0]` of a command word (R80). -/
def commandOpcode (v : Cell) : BitVec 8 := v.extractLsb' 0 8

/-- A legal command word: RES is 0 and the opcode is below 0x09 (R80, R85). -/
def commandWordWellFormed (v : Cell) : Bool :=
  decide (commandReserved v = 0#56) && decide ((commandOpcode v).toNat < 9)

/-- The legal ranges of the build-time parameters (00_scope.md R6). -/
def Params.wellFormed (p : Params) : Bool :=
  decide (1 ≤ p.wmax) && decide (p.wmax ≤ 64) &&
  decide (p.rmax ≤ 255) &&
  decide (1 ≤ p.kmax) && decide (p.kmax ≤ 8192) &&
  decide (p.mmax % 2 = 0) && decide (p.mmax ≤ 32768)

end Sys2Proof
end

