-- ==== Sys2Proof/Decode.lean ====
section
/-! DEFINITION. The decoder of command words, total on every 64-bit value and rejecting by name (30_encoding.md
R86), and after it the encoder (R82). -/

namespace Sys2Proof

/-- Why a command word is illegal (R85). -/
inductive DecodeReject where
  /-- `v[63:8]` is not 0. -/
  | reservedBits
  /-- `v[63:8]` is 0 and the opcode is 0x09 or above. -/
  | undefinedOpcode
  deriving DecidableEq, Repr

/-- The command an opcode selects (R82). -/
def commandOfOpcode (o : BitVec 8) : Except DecodeReject Instr :=
  match o.toNat with
  | 0x00 => .ok .nop
  | 0x01 => .ok .genMagic
  | 0x02 => .ok .initSubkeys
  | 0x03 => .ok .mixKey
  | 0x04 => .ok .buildSchedule
  | 0x05 => .ok .encBlock
  | 0x06 => .ok .decBlock
  | 0x07 => .ok .encMsg
  | 0x08 => .ok .decMsg
  | _ => .error .undefinedOpcode

/-- Decode a command word (R86). -/
def decode (v : Cell) : Except DecodeReject Instr :=
  if commandReserved v = 0#56 then commandOfOpcode (commandOpcode v) else .error .reservedBits

/-- The opcode of a command (R82). -/
def opcodeOf : Instr → BitVec 8
  | .nop => 0x00#8
  | .genMagic => 0x01#8
  | .initSubkeys => 0x02#8
  | .mixKey => 0x03#8
  | .buildSchedule => 0x04#8
  | .encBlock => 0x05#8
  | .decBlock => 0x06#8
  | .encMsg => 0x07#8
  | .decMsg => 0x08#8

/-- The command word of a command: RES = 0 above the opcode (R80). -/
def encode (i : Instr) : Cell := 0#56 ++ opcodeOf i

/-- The instruction the decoder reads from a word of the opcode table: a command is one 64-bit word (R81) whose
bits are numbered as the table numbers them (R8), and every bit above `nbits` is 0. -/
def decodeTableWord (nbits w : Nat) : Option Instr :=
  if w % 2 ^ nbits < 2 ^ 64 then
    match decode (BitVec.ofNat 64 (w % 2 ^ nbits)) with
    | .ok i => some i
    | .error _ => none
  else none

end Sys2Proof
end

