-- ==== Sys2Proof/Machine/Reset.lean ====
section
/-! DEFINITION. The reset event (70_reset_and_hazards.md R210, R211). -/

namespace Sys2Proof.Machine

open Sys2Proof

/-- How many S cells a command could write, by its operands (R83, R210, assumption log 6). -/
def State.subCellsOf (s : State) : Instr → Nat
  | .nop => 0
  | .genMagic => 0
  | .initSubkeys => subkeyCount s.snapR
  | .mixKey => subkeyCount s.schedR
  | .buildSchedule => subkeyCount s.snapR
  | .encBlock => 0
  | .decBlock => 0
  | .encMsg => subkeyCount s.snapR
  | .decMsg => subkeyCount s.snapR

/-- How many MSG cells a command could write, by its operands (R83, R210, assumption log 6). -/
def State.msgCellsOf (s : State) : Instr → Nat
  | .nop => 0
  | .genMagic => 0
  | .initSubkeys => 0
  | .mixKey => 0
  | .buildSchedule => 0
  | .encBlock => 0
  | .decBlock => 0
  | .encMsg => s.snapM
  | .decMsg => s.snapM

/-- The S cells that a reset leaves unspecified: those the command in flight could write, none when idle. -/
def State.lostSub (s : State) : Nat :=
  if s.status.busy then
    match decode s.curCmd with
    | .ok i => min (s.subCellsOf i) s.params.smax
    | .error _ => 0
  else 0

/-- The MSG cells that a reset leaves unspecified: those the command in flight could write, none when idle. -/
def State.lostMsg (s : State) : Nat :=
  if s.status.busy then
    match decode s.curCmd with
    | .ok i => min (s.msgCellsOf i) s.params.mmax
    | .error _ => 0
  else 0

/-- Give the first `n` cells of a RAM the free values of draw `d` (U3, log 2). -/
def Memory.lose (ram : RamId) (d n : Nat) (m : Memory) : Memory :=
  m.writeFrom 0 ((List.range n).map (Config.lostCell ram d))

/-- The reset event (R210): every register field takes its reset value, a command in flight ends without
completing, KEY cells stay, S and MSG cells stay but for those the command could write. -/
def State.resetEvent (s : State) : State :=
  { s with
    ie := false
    cfg := 0#64
    status := Status.atReset
    magicP := 0#64
    magicQ := 0#64
    sched := Sched.atReset
    dataL := 0#64
    dataR := 0#64
    sRam := s.sRam.lose .sub s.draws s.lostSub
    msgRam := s.msgRam.lose .msg s.draws s.lostMsg
    curCmd := Config.hiddenCurCmd s.draws
    snap := Config.hiddenSnap s.draws
    draws := s.draws + 1 }

end Sys2Proof.Machine
end

