-- ==== Sys2Proof/Machine/Engine.lean ====
section
/-! DEFINITION. The engine's one step, and one turn of the whole machine (44_control.md R173, R176, 20_memory.md
R71). -/

namespace Sys2Proof.Machine

open Sys2Proof

/-- The completion of the command in flight: the command its word decodes to, or the illegal command (R173). -/
def completion (s : State) : Host.Outcome State Fault Refusal :=
  match decode s.curCmd with
  | .ok i => exec i s
  | .error _ => execIllegal s

/-- The engine's turn: the completion while BUSY = 1, nothing while BUSY = 0 (R176, R198). -/
def engineTurn (s : State) : Host.Outcome State Fault Refusal :=
  if s.status.busy then completion s else .next s

/-- One turn of the outside world or of the engine. -/
def takeTurn (t : Turn) (s : State) : Host.Outcome State Fault Refusal :=
  match t with
  | .engine => engineTurn s
  | .read a => .next (s.hostRead a)
  | .write a v => .next (s.hostWrite a v)
  | .reset => .next s.resetEvent

/-- The next batch of turns (R228, log 5). -/
def Later.batch : Later → List Turn
  | .again ts => ts
  | .free n => Config.hostTurns n

/-- What follows the next batch. -/
def Later.rest : Later → Later
  | .again ts => .again ts
  | .free n => .free (n + 1)

/-- `s` with the next batch of turns listed. -/
def State.nextBatch (s : State) : State := { s with turns := s.later.batch, later := s.later.rest }

/-- One step of the machine: the next turn of the list; when the list is empty the engine's, with the next batch of
turns listed after it (R228, log 5). -/
def machineStep (s : State) : Host.Outcome State Fault Refusal :=
  match s.turns with
  | [] => engineTurn s.nextBatch
  | t :: rest => takeTurn t { s with turns := rest }

/-- The machine about to complete the command of word `v`: started as a host write of `v` to CMD starts it (R170),
with the engine's turn next. -/
def State.withCommand (v : Cell) (s : State) : State :=
  { s.startCommand v with turns := .engine :: s.turns }

end Sys2Proof.Machine
end

