-- ==== Sys2Proof/Safety.lean ====
section
/-! DEFINITION. The terms the claims use: what a completed command may have changed, the error a command reports,
and the invariants of the machine. -/

namespace Sys2Proof.Machine

open Sys2Proof

/-- A run of `n` steps that neither faults nor refuses, and its last state. -/
def RunsTo (n : Nat) (s t : State) : Prop := Sys2Proof.core.run n s = .next t

/-- STATUS after a completion with code `e` (44_control.md R176): WOVR and LASTOP stay. -/
def completedStatus (e : ErrCode) (st : Status) : Status :=
  { busy := false, done := true, wovr := st.wovr, err := e, lastop := st.lastop }

/-- What no command writes: the parameters, CTRL, CFG, the KEY RAM (10_state.md R39), the hidden command state
(R45) and the model's own fields. -/
def SameOutsideEngine (s t : State) : Prop :=
  t.params = s.params ∧ t.ie = s.ie ∧ t.cfg = s.cfg ∧ (∀ k, t.keyCell k = s.keyCell k) ∧
  t.curCmd = s.curCmd ∧ t.snap = s.snap ∧ t.turns = s.turns ∧ t.later = s.later ∧ t.readData = s.readData ∧
  t.draws = s.draws

/-- The magic pair and its fields of SCHED are as before. -/
def SameMagic (s t : State) : Prop :=
  t.magicP = s.magicP ∧ t.magicQ = s.magicQ ∧ t.sched.mvalid = s.sched.mvalid ∧ t.sched.mw = s.sched.mw

/-- The magic pair is that of width `w`, and SCHED says so (40_constant_generator.md R109). -/
def MagicIs (w : Nat) (t : State) : Prop :=
  t.magicP = zext64 (magicP w) ∧ t.magicQ = zext64 (magicQ w) ∧ t.sched.mvalid = true ∧ t.sched.mw.toNat = w

/-- The block registers are as before. -/
def SameBlock (s t : State) : Prop := t.dataL = s.dataL ∧ t.dataR = s.dataR

/-- The S cells from index `n` on are as before (10_state.md R40). -/
def SameSubFrom (n : Nat) (s t : State) : Prop := ∀ k, n ≤ k → t.subCell k = s.subCell k

/-- The MSG cells from index `n` on are as before (10_state.md R41). -/
def SameMsgFrom (n : Nat) (s t : State) : Prop := ∀ k, n ≤ k → t.msgCell k = s.msgCell k

/-- SCHED holds a schedule of width `w` and `r` rounds in the given state (10_state.md R36). -/
def SchedIs (st : SchedState) (w r : Nat) (t : State) : Prop :=
  t.sched.state = st ∧ t.sched.sw.toNat = w ∧ t.sched.sr.toNat = r

/-- The first `n` S cells hold the words of a list, zero-extended. -/
def SubHolds (n : Nat) (ws : List Nat) (t : State) : Prop :=
  ∀ k, k < n → t.subCell k = zext64 (ws.getD k 0)

/-- The first `n` MSG cells hold the words of a list, zero-extended. -/
def MsgHolds (n : Nat) (ws : List Nat) (t : State) : Prop :=
  ∀ k, k < n → t.msgCell k = zext64 (ws.getD k 0)

/-- The captured width is legal: `1 <= w <= WMAX` (10_state.md R25). -/
def WidthLegal (s : State) : Prop := 1 ≤ s.snapW ∧ s.snapW ≤ s.params.wmax

/-- The captured round count is legal: `r <= RMAX`. -/
def RoundsLegal (s : State) : Prop := s.snapR ≤ s.params.rmax

/-- The captured key length is legal: `1 <= c <= KMAX`. -/
def KeyLegal (s : State) : Prop := 1 ≤ s.snapC ∧ s.snapC ≤ s.params.kmax

/-- The captured message length is legal: even and at most MMAX. -/
def MessageLegal (s : State) : Prop := s.snapM % 2 = 0 ∧ s.snapM ≤ s.params.mmax

/-- The words of a key: `c >= 1` of them, each below `2^w` (41_key_schedule.md R123). -/
def IsKey (w : Nat) (ws : List Nat) : Prop := ws ≠ [] ∧ ∀ x ∈ ws, x < 2 ^ w

/-- The invariant of the command lifecycle (10_state.md R27, R45, 60_exceptions.md R185): while BUSY = 1, DONE
and ERR are 0, LASTOP is the opcode byte of `CUR_CMD`, and `SNAP` equals CFG. -/
def LifecycleInv (s : State) : Prop :=
  s.status.busy = true →
    s.status.done = false ∧ s.status.err = .ok ∧ s.status.lastop = s.curCmd.extractLsb' 0 8 ∧ s.snap = s.cfg

/-- The reserved bits of CFG, bit 7 and [63:48], are 0 (10_state.md R25). -/
def CfgReservedInv (s : State) : Prop := ∀ i, i = 7 ∨ 48 ≤ i → s.cfg.getLsbD i = false

/-- The RAMs keep their canonical form and their sizes (10_state.md R39 to R41). -/
def RamInv (s : State) : Prop :=
  (s.keyRam.wf ∧ ∀ e ∈ s.keyRam, e.1 < s.params.kmax) ∧
  (s.sRam.wf ∧ ∀ e ∈ s.sRam, e.1 < s.params.smax) ∧
  (s.msgRam.wf ∧ ∀ e ∈ s.msgRam, e.1 < s.params.mmax)

/-- The invariant of the magic pair (40_constant_generator.md R109): whenever MVALID = 1 the registers hold the
pair of width MW, a legal width. -/
def MagicInv (s : State) : Prop :=
  s.sched.mvalid = true →
    1 ≤ s.sched.mw.toNat ∧ s.sched.mw.toNat ≤ s.params.wmax ∧ MagicIs s.sched.mw.toNat s

/-- The invariant of the schedule (10_state.md R37): a schedule that is not EMPTY has a legal width and round
count; an INIT schedule is the initial fill; a READY schedule is a single mix of an initial fill with some key. -/
def ScheduleInv (s : State) : Prop :=
  (s.sched.state ≠ .empty →
    1 ≤ s.schedW ∧ s.schedW ≤ s.params.wmax ∧ s.schedR ≤ s.params.rmax ∧ s.sched.mvalid = true) ∧
  (s.sched.state = .init → SubHolds (subkeyCount s.schedR) (initialFill s.schedW s.schedR) s) ∧
  (s.sched.state = .ready →
    ∃ key, IsKey s.schedW key ∧ key.length ≤ s.params.kmax ∧
      SubHolds (subkeyCount s.schedR) (buildWords s.schedW s.schedR key) s)

/-- The error each command reports, read off the table of 60_exceptions.md R184. -/
def ruleError (i : Instr) (s : State) : ErrCode :=
  match i with
  | .nop => .ok
  | .genMagic => if s.snapW = 0 ∨ s.params.wmax < s.snapW then .badWidth else .ok
  | .initSubkeys =>
    if s.snapW = 0 ∨ s.params.wmax < s.snapW then .badWidth
    else if s.params.rmax < s.snapR then .badRounds else .ok
  | .mixKey =>
    if s.sched.state ≠ .init then .noSchedule
    else if s.snapC = 0 then .invalidKey
    else if s.params.kmax < s.snapC then .keyTooLong else .ok
  | .buildSchedule =>
    if s.snapW = 0 ∨ s.params.wmax < s.snapW then .badWidth
    else if s.params.rmax < s.snapR then .badRounds
    else if s.snapC = 0 then .invalidKey
    else if s.params.kmax < s.snapC then .keyTooLong else .ok
  | .encBlock => if s.sched.state ≠ .ready then .noSchedule else .ok
  | .decBlock => if s.sched.state ≠ .ready then .noSchedule else .ok
  | .encMsg =>
    if s.snapW = 0 ∨ s.params.wmax < s.snapW then .badWidth
    else if s.params.rmax < s.snapR then .badRounds
    else if s.snapM % 2 ≠ 0 then .invalidMessageLength
    else if s.params.mmax < s.snapM then .messageTooLong
    else if s.snapC = 0 then .invalidKey
    else if s.params.kmax < s.snapC then .keyTooLong else .ok
  | .decMsg =>
    if s.snapW = 0 ∨ s.params.wmax < s.snapW then .badWidth
    else if s.params.rmax < s.snapR then .badRounds
    else if s.snapM % 2 ≠ 0 then .invalidMessageLength
    else if s.params.mmax < s.snapM then .messageTooLong
    else if s.snapC = 0 then .invalidKey
    else if s.params.kmax < s.snapC then .keyTooLong else .ok

/-- The engine has the next turn of `s`, and `u` is `s` with that turn taken: it is listed first, or no turn is
listed and the next batch follows it (70_reset_and_hazards.md R228, assumption log 5). -/
def EngineHasTheTurn (s u : State) : Prop :=
  (∃ rest, s.turns = .engine :: rest ∧ u = { s with turns := rest }) ∨
  (s.turns = [] ∧ u = { s with turns := s.later.batch, later := s.later.rest })

/-- A turn of the host that is not a reset. -/
def isHostAccess : Turn → Bool
  | .read _ => true
  | .write _ _ => true
  | .engine => false
  | .reset => false

/-- Everything a command's result may depend on or change, but STATUS: what the busy window keeps constant
(44_control.md R174). -/
def SameEngineData (s t : State) : Prop :=
  t.params = s.params ∧ t.cfg = s.cfg ∧ t.curCmd = s.curCmd ∧ t.snap = s.snap ∧
  t.magicP = s.magicP ∧ t.magicQ = s.magicQ ∧ t.sched = s.sched ∧ t.dataL = s.dataL ∧ t.dataR = s.dataR ∧
  t.keyRam = s.keyRam ∧ t.sRam = s.sRam ∧ t.msgRam = s.msgRam

end Sys2Proof.Machine
end

