-- ==== Sys2Proof/Certificates/Slice0/Obligations.lean ====
section
/-! DEFINITION. The statements for the provers: what the rules of spec/ say the engine does.

The fields `turns`, `later`, `readData` and `draws` of a state are the model's own (assumption logs 5 and 10):
`turns` is the order in which host accesses, resets and the engine's steps fall, `later` what follows when those are
used up, `readData` is what the last host read returned, `draws` numbers the free values. What a statement says of
these four fields is the model's choice, not a rule of the spec. -/

open Sys2Proof Sys2Proof.Machine

/-! ### Encoding -/

/-- R86: every 64-bit value decodes to exactly one outcome, by the map of R82. -/
def Obligations.OpcodeMapDecodes : Prop :=
  (∀ v : Cell, v.extractLsb' 8 56 ≠ 0#56 → decode v = .error .reservedBits) ∧
  (∀ v : Cell, v.extractLsb' 8 56 = 0#56 → 9 ≤ (v.extractLsb' 0 8).toNat →
    decode v = .error .undefinedOpcode) ∧
  decode 0x0000000000000000#64 = .ok .nop ∧
  decode 0x0000000000000001#64 = .ok .genMagic ∧
  decode 0x0000000000000002#64 = .ok .initSubkeys ∧
  decode 0x0000000000000003#64 = .ok .mixKey ∧
  decode 0x0000000000000004#64 = .ok .buildSchedule ∧
  decode 0x0000000000000005#64 = .ok .encBlock ∧
  decode 0x0000000000000006#64 = .ok .decBlock ∧
  decode 0x0000000000000007#64 = .ok .encMsg ∧
  decode 0x0000000000000008#64 = .ok .decMsg

/-- R80, R82: a command word decodes to a command exactly when it is that command's encoding, for all nine
commands and all `2^64` words; every encoding is a well-formed command word. -/
def Obligations.DecodeInvertsEncode : Prop :=
  ∀ i : Instr, i.wellFormed = true →
    commandWordWellFormed (encode i) = true ∧ ∀ v : Cell, decode v = .ok i ↔ v = encode i

/-! ### The step -/

/-- R173, R176, R198: on the engine's turn (listed, or no turn listed) with a command in flight, the step is `exec`
of the decoded command, at the state with that turn taken; while idle, nothing changes but the turn taken. -/
def Obligations.StepRunsTheDecodedCommand : Prop :=
  ∀ s u : State, EngineHasTheTurn s u →
    (∀ i : Instr, s.status.busy = true → decode s.curCmd = .ok i → step s = exec i u) ∧
    (s.status.busy = false → step s = .next u)

/-- R170: the start of a command, by a host write to CMD at any of the eight byte addresses of its cell; while
BUSY = 1 the same write does none of this and sets WOVR. -/
def Obligations.CmdWriteStartsACommand : Prop :=
  ∀ (s : State) (a : Addr) (v : Cell) (rest : List Turn),
    s.turns = .write a v :: rest → a.toNat / 8 * 8 = 0x20 →
    (s.status.busy = false →
      step s = .next { s with
        turns := rest
        curCmd := v
        snap := s.cfg
        status := { busy := true, done := false, wovr := s.status.wovr, err := .ok,
                    lastop := v.extractLsb' 0 8 } }) ∧
    (s.status.busy = true →
      step s = .next { s with turns := rest, status := { s.status with wovr := true } })

/-- R222: the first read of STATUS after the CMD write that started a command returns BUSY = 1, if the host's read
is the next event. -/
def Obligations.BusyIsVisibleAtOnce : Prop :=
  ∀ (s : State) (v : Cell) (rest : List Turn), s.status.busy = false →
    s.turns = .write 0x20#19 v :: .read 0x28#19 :: rest →
    ∃ (t : State) (x : Cell), RunsTo 2 s t ∧ t.readData = some x ∧ x.getLsbD 0 = true

/-- R172: an illegal command word, started while idle and completed, leaves ERR = 3, DONE = 1, LASTOP = `v[7:0]`
and changes nothing else but the hidden command state. -/
def Obligations.IllegalWordCompletesWithCode3 : Prop :=
  ∀ (s : State) (v : Cell) (rest : List Turn) (later : Later), s.status.busy = false →
    (v.extractLsb' 8 56 ≠ 0#56 ∨ 9 ≤ (v.extractLsb' 0 8).toNat) →
    (s.turns = .write 0x20#19 v :: .engine :: rest ∧ later = s.later ∨
      s.turns = [.write 0x20#19 v] ∧ rest = s.later.batch ∧ later = s.later.rest) →
    RunsTo 2 s { s with
      turns := rest
      later := later
      curCmd := v
      snap := s.cfg
      status := { busy := false, done := true, wovr := s.status.wovr, err := .illegalCommand,
                  lastop := v.extractLsb' 0 8 } }

/-- R186: no turn of the machine, whatever the state, ends in a fault or a refusal. -/
def Obligations.StepNeverStops : Prop := ∀ s : State, ∃ t : State, step s = .next t

/-- R228: with fairness (every batch of turns is finite, the engine's turn after it), a command that has started completes,
or a reset ends it, after at most one step more than the turns listed. -/
def Obligations.CommandEventuallyEnds : Prop :=
  ∀ s : State, s.status.busy = true →
    ∃ (n : Nat) (t : State), n ≤ s.turns.length + 1 ∧ RunsTo n s t ∧ t.status.busy = false

/-- R174: whatever host accesses fall between a command's start and its completion, the completion leaves the same
data and the same error as one that falls before all of them. -/
def Obligations.ResultDoesNotDependOnInterleaving : Prop :=
  ∀ (s : State) (accesses rest : List Turn), s.status.busy = true →
    (∀ t ∈ accesses, isHostAccess t = true) → s.turns = accesses ++ .engine :: rest →
    ∃ t u : State, RunsTo (accesses.length + 1) s t ∧
      RunsTo 1 { s with turns := .engine :: rest } u ∧
      SameEngineData u t ∧ t.turns = u.turns ∧ t.status.err = u.status.err ∧
      t.status.busy = false ∧ t.status.done = true ∧ t.status.lastop = u.status.lastop

/-! ### Host accesses -/

/-- R63, R64: the address map, and R61: address bits [2:0] are ignored. -/
def Obligations.AddressMapIsTheTable : Prop :=
  ∀ (p : Params) (a : Addr),
    (a.toNat / 8 * 8 = 0x00 → targetOf p a = .id) ∧
    (a.toNat / 8 * 8 = 0x08 → targetOf p a = .params) ∧
    (a.toNat / 8 * 8 = 0x10 → targetOf p a = .ctrl) ∧
    (a.toNat / 8 * 8 = 0x18 → targetOf p a = .cfg) ∧
    (a.toNat / 8 * 8 = 0x20 → targetOf p a = .cmd) ∧
    (a.toNat / 8 * 8 = 0x28 → targetOf p a = .status) ∧
    (a.toNat / 8 * 8 = 0x30 → targetOf p a = .magicP) ∧
    (a.toNat / 8 * 8 = 0x38 → targetOf p a = .magicQ) ∧
    (a.toNat / 8 * 8 = 0x40 → targetOf p a = .sched) ∧
    (a.toNat / 8 * 8 = 0x48 → targetOf p a = .dataL) ∧
    (a.toNat / 8 * 8 = 0x50 → targetOf p a = .dataR) ∧
    (0x58 ≤ a.toNat → a.toNat ≤ 0x0FFFF → targetOf p a = .reserved) ∧
    (0x10000 ≤ a.toNat → a.toNat ≤ 0x1FFFF →
      targetOf p a = if (a.toNat - 0x10000) / 8 < p.kmax then .key ((a.toNat - 0x10000) / 8) else .reserved) ∧
    (0x20000 ≤ a.toNat → a.toNat ≤ 0x2FFFF →
      targetOf p a =
        if (a.toNat - 0x20000) / 8 < 2 * (p.rmax + 1) then .sub ((a.toNat - 0x20000) / 8) else .reserved) ∧
    (0x30000 ≤ a.toNat → a.toNat ≤ 0x3FFFF → targetOf p a = .reserved) ∧
    (0x40000 ≤ a.toNat →
      targetOf p a = if (a.toNat - 0x40000) / 8 < p.mmax then .msg ((a.toNat - 0x40000) / 8) else .reserved)

/-- R23, R24, R27, R36: the fields of the registers a host reads, the reserved ones among them as 0; R25, R84: CFG
reads as it is, and the operands `w`, `r`, `c`, `m` are bits [6:0], [15:8], [31:16], [47:32] of the captured CFG;
R36: the numbers of SCHED.STATE. -/
def Obligations.RegisterFieldsReadAsLaidOut : Prop :=
  ∀ s : State, s.params.wellFormed = true →
    s.readTarget .id = 0x524335454E473031#64 ∧
    (let p := s.readTarget .params
     (p.extractLsb' 0 7).toNat = s.params.wmax ∧ p.getLsbD 7 = false ∧
     (p.extractLsb' 8 8).toNat = s.params.rmax ∧ (p.extractLsb' 16 16).toNat = s.params.kmax ∧
     (p.extractLsb' 32 16).toNat = s.params.mmax ∧ p.extractLsb' 48 16 = 0#16) ∧
    (let c := s.readTarget .ctrl
     c.getLsbD 0 = s.ie ∧ c.extractLsb' 1 63 = 0#63) ∧
    (let st := s.readTarget .status
     st.getLsbD 0 = s.status.busy ∧ st.getLsbD 1 = s.status.done ∧ st.getLsbD 2 = s.status.wovr ∧
     st.getLsbD 3 = (s.status.done && s.ie) ∧ st.extractLsb' 4 4 = 0#4 ∧
     st.extractLsb' 8 8 = codeOf s.status.err ∧ st.extractLsb' 16 8 = s.status.lastop ∧
     st.extractLsb' 24 40 = 0#40) ∧
    (let d := s.readTarget .sched
     d.extractLsb' 0 2 = schedStateCode s.sched.state ∧ d.getLsbD 2 = s.sched.mvalid ∧
     d.extractLsb' 3 5 = 0#5 ∧ d.extractLsb' 8 7 = s.sched.mw ∧ d.getLsbD 15 = false ∧
     d.extractLsb' 16 7 = s.sched.sw ∧ d.getLsbD 23 = false ∧ d.extractLsb' 24 8 = s.sched.sr ∧
     d.extractLsb' 32 32 = 0#32) ∧
    schedStateCode .empty = 0#2 ∧ schedStateCode .init = 1#2 ∧ schedStateCode .ready = 2#2 ∧
    s.readTarget .cfg = s.cfg ∧
    s.snapW = s.snap.toNat % 2 ^ 7 ∧ s.snapR = s.snap.toNat / 2 ^ 8 % 2 ^ 8 ∧
    s.snapC = s.snap.toNat / 2 ^ 16 % 2 ^ 16 ∧ s.snapM = s.snap.toNat / 2 ^ 32 % 2 ^ 16 ∧
    s.schedW = s.sched.sw.toNat ∧ s.schedR = s.sched.sr.toNat

/-- R65, R69, R70: a host read returns the value of its target, and changes nothing else; a read that is
unspecified while BUSY = 1 returns a free value of its own instead. -/
def Obligations.ReadReturnsItsTargetOrAFreeValue : Prop :=
  ∀ (s : State) (a : Addr) (rest : List Turn), s.turns = .read a :: rest →
    let x := targetOf s.params a
    let hidden := x = .magicP ∨ x = .magicQ ∨ x = .sched ∨ x = .dataL ∨ x = .dataR ∨
      (∃ k, x = .sub k) ∨ (∃ k, x = .msg k)
    let found : Cell := match x with
      | .id => 0x524335454E473031#64
      | .params => paramsWord s.params
      | .ctrl => if s.ie then 1#64 else 0#64
      | .cfg => s.cfg
      | .cmd => 0#64
      | .status => s.statusWord
      | .magicP => s.magicP
      | .magicQ => s.magicQ
      | .sched => schedWord s.sched
      | .dataL => s.dataL
      | .dataR => s.dataR
      | .key k => s.keyCell k
      | .sub k => s.subCell k
      | .msg k => s.msgCell k
      | .reserved => 0#64
    (s.status.busy = true → hidden →
      step s = .next { s with
        turns := rest, readData := some (Config.busyRead s.draws), draws := s.draws + 1 }) ∧
    (s.status.busy = false ∨ ¬hidden → step s = .next { s with turns := rest, readData := some found })

/-- R68: the busy window. While idle no write is dropped: it takes effect at its target. -/
def Obligations.BusyWindowDropsWrites : Prop :=
  ∀ (s : State) (a : Addr) (v : Cell) (rest : List Turn), s.turns = .write a v :: rest →
    let x := targetOf s.params a
    (s.status.busy = true →
      (x = .cfg ∨ x = .cmd ∨ x = .dataL ∨ x = .dataR ∨ (∃ k, x = .key k) ∨ (∃ k, x = .msg k) →
        step s = .next { s with turns := rest, status := { s.status with wovr := true } }) ∧
      (x = .ctrl → step s = .next { s with turns := rest, ie := v.getLsbD 0 }) ∧
      (x = .status → step s = .next { s with
        turns := rest
        status := { s.status with
          done := if v.getLsbD 1 then false else s.status.done
          wovr := if v.getLsbD 2 then false else s.status.wovr } }) ∧
      (x = .id ∨ x = .params ∨ x = .magicP ∨ x = .magicQ ∨ x = .sched ∨ (∃ k, x = .sub k) ∨ x = .reserved →
        step s = .next { s with turns := rest })) ∧
    (s.status.busy = false → step s = .next (State.writeTarget v { s with turns := rest } x))

/-- R25, R38, R39, R41, R62, R65: a host write while idle replaces the writable bits of its target, cell by cell,
and changes nothing else; WOVR stays as it is but for a write to STATUS. -/
def Obligations.IdleWriteReplacesItsTarget : Prop :=
  ∀ (s : State) (a : Addr) (v : Cell) (rest : List Turn), s.turns = .write a v :: rest →
    s.status.busy = false →
    let x := targetOf s.params a
    (x = .cfg → ∃ c : Cell, step s = .next { s with turns := rest, cfg := c } ∧
      ∀ i, c.getLsbD i = if i = 7 ∨ 48 ≤ i then false else v.getLsbD i) ∧
    (x = .ctrl → step s = .next { s with turns := rest, ie := v.getLsbD 0 }) ∧
    (x = .status → step s = .next { s with
      turns := rest
      status := { s.status with
        done := if v.getLsbD 1 then false else s.status.done
        wovr := if v.getLsbD 2 then false else s.status.wovr } }) ∧
    (x = .dataL → step s = .next { s with turns := rest, dataL := v }) ∧
    (x = .dataR → step s = .next { s with turns := rest, dataR := v }) ∧
    (∀ k, x = .key k → ∃ m : Memory, step s = .next { s with turns := rest, keyRam := m } ∧
      Memory.cell .key m k = v ∧ ∀ j, j ≠ k → Memory.cell .key m j = s.keyCell j) ∧
    (∀ k, x = .msg k → ∃ m : Memory, step s = .next { s with turns := rest, msgRam := m } ∧
      Memory.cell .msg m k = v ∧ ∀ j, j ≠ k → Memory.cell .msg m j = s.msgCell j) ∧
    (x = .id ∨ x = .params ∨ x = .magicP ∨ x = .magicQ ∨ x = .sched ∨ (∃ k, x = .sub k) ∨ x = .reserved →
      step s = .next { s with turns := rest })

/-- R30: what sets and what clears the sticky WOVR. -/
def Obligations.WovrIsSticky : Prop :=
  ∀ s t : State, step s = .next t →
    (s.status.wovr = false → t.status.wovr = true →
      s.status.busy = true ∧ ∃ a v rest, s.turns = .write a v :: rest ∧
        droppedWhileBusy (targetOf s.params a) = true) ∧
    (s.status.wovr = true → t.status.wovr = false →
      (∃ rest, s.turns = .reset :: rest) ∨
      ∃ a v rest, s.turns = .write a v :: rest ∧ targetOf s.params a = .status ∧ v.getLsbD 2 = true) ∧
    (∀ a v rest, s.turns = .write a v :: rest → s.status.busy = true →
      droppedWhileBusy (targetOf s.params a) = true → t.status.wovr = true) ∧
    ((∃ rest, s.turns = .reset :: rest) → t.status.wovr = false) ∧
    (∀ a v rest, s.turns = .write a v :: rest → targetOf s.params a = .status → v.getLsbD 2 = true →
      t.status.wovr = false)

/-- R190, R226: `irq` is `DONE AND IE`; once high it stays until the host writes 1 to STATUS.DONE or 0 to CTRL.IE,
starts the next command, or the machine is reset, and each of these lowers it. -/
def Obligations.IrqStaysUntilAcknowledged : Prop :=
  ∀ s t : State, step s = .next t →
    (s.irq = (s.status.done && s.ie)) ∧
    (s.irq = true →
      (t.irq = false ↔
        (∃ rest, s.turns = .reset :: rest) ∨
        ∃ a v rest, s.turns = .write a v :: rest ∧
          ((targetOf s.params a = .status ∧ v.getLsbD 1 = true) ∨
           (targetOf s.params a = .ctrl ∧ v.getLsbD 0 = false) ∨
           (targetOf s.params a = .cmd ∧ s.status.busy = false))))

/-- R6, R23: no step changes the build-time parameters, so ID and PARAMS always read the same. -/
def Obligations.IdentificationIsConstant : Prop :=
  ∀ s t : State, step s = .next t →
    t.params = s.params ∧ t.readTarget .id = s.readTarget .id ∧ t.readTarget .params = s.readTarget .params

/-! ### Reset -/

/-- R211: what power-on reset leaves, for every choice of the build-time parameters. -/
def Obligations.ResetLeavesTheSpecifiedValues : Prop :=
  State.reset = State.powerOn Params.default ∧
  ∀ p : Params,
    let s := State.powerOn p
    s.params = p ∧ s.status.busy = false ∧ s.status.done = false ∧ s.status.wovr = false ∧
    codeOf s.status.err = 0#8 ∧ s.status.lastop = 0#8 ∧ s.ie = false ∧ s.irq = false ∧ s.cfg = 0#64 ∧
    s.sched.state = .empty ∧ s.sched.mvalid = false ∧ schedWord s.sched = 0#64 ∧ s.statusWord = 0#64 ∧
    s.magicP = 0#64 ∧ s.magicQ = 0#64 ∧ s.dataL = 0#64 ∧ s.dataR = 0#64

/-- R210, R85, R172: the reset event. Registers take their reset values; KEY cells stay; S and MSG cells stay while
idle and with an illegal word in flight; with a command in flight the first `n` S cells and the first `m` MSG cells,
those it could write (log 6), take the free values of this reset (log 2), and all others stay. -/
def Obligations.ResetEventKeepsTheRams : Prop :=
  ∀ (s : State) (rest : List Turn), s.turns = .reset :: rest →
    ∃ t : State, step s = .next t ∧ t.turns = rest ∧ t.params = s.params ∧
      t.ie = false ∧ t.cfg = 0#64 ∧ t.statusWord = 0#64 ∧ t.status.busy = false ∧ t.irq = false ∧
      t.magicP = 0#64 ∧ t.magicQ = 0#64 ∧ schedWord t.sched = 0#64 ∧ t.sched.state = .empty ∧
      t.dataL = 0#64 ∧ t.dataR = 0#64 ∧
      (∀ k, t.keyCell k = s.keyCell k) ∧
      (s.status.busy = false → SameSubFrom 0 s t ∧ SameMsgFrom 0 s t) ∧
      (s.status.busy = true →
        (s.curCmd.extractLsb' 8 56 ≠ 0#56 ∨ 9 ≤ (s.curCmd.extractLsb' 0 8).toNat) →
        SameSubFrom 0 s t ∧ SameMsgFrom 0 s t) ∧
      (∀ i, s.status.busy = true → decode s.curCmd = .ok i →
        let n := match i with
          | .nop => 0
          | .genMagic => 0
          | .initSubkeys => 2 * (s.snapR + 1)
          | .mixKey => 2 * (s.schedR + 1)
          | .buildSchedule => 2 * (s.snapR + 1)
          | .encBlock => 0
          | .decBlock => 0
          | .encMsg => 2 * (s.snapR + 1)
          | .decMsg => 2 * (s.snapR + 1)
        let m := match i with
          | .nop => 0
          | .genMagic => 0
          | .initSubkeys => 0
          | .mixKey => 0
          | .buildSchedule => 0
          | .encBlock => 0
          | .decBlock => 0
          | .encMsg => s.snapM
          | .decMsg => s.snapM
        SameSubFrom n s t ∧ SameMsgFrom m s t ∧
        (∀ k, k < n → k < s.params.smax → t.subCell k = Config.lostCell .sub s.draws k) ∧
        (∀ k, k < m → k < s.params.mmax → t.msgCell k = Config.lostCell .msg s.draws k))

/-! ### Words -/

/-- R13: the rotation laws. -/
def Obligations.RotationLaws : Prop :=
  ∀ w x n : Nat, 1 ≤ w → x < 2 ^ w →
    rotrW w (rotlW w x n) n = x ∧ rotlW w (rotrW w x n) n = x ∧ rotlW w x w = x

/-- R12: the two rotations, written on numbers, are the rotations of a `w`-bit vector. -/
def Obligations.RotationsAreBitRotations : Prop :=
  ∀ (w : Nat) (x : BitVec w) (n : Nat), 1 ≤ w →
    rotlW w x.toNat n = (x.rotateLeft n).toNat ∧ rotrW w x.toNat n = (x.rotateRight n).toNat

/-- R11: word addition and subtraction wrap modulo `2^w`, and undo each other. -/
def Obligations.WordArithmeticWraps : Prop :=
  ∀ w a b c : Nat, a < 2 ^ w → b < 2 ^ w → c < 2 ^ w →
    addW w a b = (if a + b < 2 ^ w then a + b else a + b - 2 ^ w) ∧
    subW w a b = (if b ≤ a then a - b else a + 2 ^ w - b) ∧
    addW w (addW w a b) c = (a + b + c) % 2 ^ w ∧
    subW w (addW w a b) b = a ∧ addW w (subW w a b) b = a ∧ a ^^^ b < 2 ^ w

/-! ### The constant generator -/

/-- R104: `P_w` from the real number `e`, with an exact floor, for every legal width. -/
def Obligations.MagicPIsTheExactFloor : Prop :=
  ∀ w : Nat, 1 ≤ w → w ≤ 64 →
    let xp : Int := ⌊(Real.exp 1 - 2) * 2 ^ w⌋
    0 < xp ∧ xp < 2 ^ w ∧ (magicP w : Int) = (xp + (1 - xp % 2)) % 2 ^ w ∧
    (magicP w : Int) = xp + (1 - xp % 2)

/-- R105: `Q_w` from the golden ratio, with an exact floor, for every legal width. -/
def Obligations.MagicQIsTheExactFloor : Prop :=
  ∀ w : Nat, 1 ≤ w → w ≤ 64 →
    let xq : Int := ⌊((1 + Real.sqrt 5) / 2 - 2) * 2 ^ w⌋
    xq < 0 ∧ (magicQ w : Int) = (xq - (1 - xq % 2)) % 2 ^ w ∧
    -2 ^ w < xq - (1 - xq % 2) ∧ (magicQ w : Int) = xq - (1 - xq % 2) + 2 ^ w

/-- R106: the closed forms of the magic pair, and that both words are odd. -/
def Obligations.MagicPairIsOdd : Prop :=
  ∀ w : Nat, 1 ≤ w → w ≤ 64 →
    let fp : Int := ⌊(Real.exp 1 - 2) * 2 ^ w⌋
    let fq : Int := ⌊((1 + Real.sqrt 5) / 2 - 1) * 2 ^ w⌋
    (magicP w : Int) = (if fp % 2 = 1 then fp else fp + 1) ∧
    (magicQ w : Int) = (if fq % 2 = 1 then fq else fq - 1) ∧
    magicP w % 2 = 1 ∧ magicQ w % 2 = 1

/-- R108: GEN_MAGIC. -/
def Obligations.GenMagicWritesThePair : Prop :=
  encode .genMagic = 0x0000000000000001#64 ∧ magicP 16 = 0xB7E1 ∧ magicQ 16 = 0x9E37 ∧
  magicP 1 = 1 ∧ magicQ 1 = 1 ∧
  ∀ s : State,
    (¬WidthLegal s →
      exec .genMagic s = .next { s with status := completedStatus .badWidth s.status }) ∧
    (WidthLegal s → ∃ t : State, exec .genMagic s = .next t ∧
      MagicIs s.snapW t ∧ t.status = completedStatus .ok s.status ∧
      SchedIs s.sched.state s.schedW s.schedR t ∧ SameBlock s t ∧ SameSubFrom 0 s t ∧ SameMsgFrom 0 s t ∧
      SameOutsideEngine s t)

/-! ### The key schedule -/

/-- R115: the initial fill, word by word and in closed form. -/
def Obligations.InitialFillIsLinear : Prop :=
  ∀ w r : Nat,
    (initialFill w r).length = 2 * (r + 1) ∧
    (initialFill w r).getD 0 0 = magicP w ∧
    (∀ k, 1 ≤ k → k < 2 * (r + 1) →
      (initialFill w r).getD k 0 = addW w ((initialFill w r).getD (k - 1) 0) (magicQ w)) ∧
    (∀ k, k < 2 * (r + 1) → (initialFill w r).getD k 0 = (magicP w + k * magicQ w) % 2 ^ w)

/-- R116: INIT_SUBKEYS. -/
def Obligations.InitSubkeysWritesTheFill : Prop :=
  encode .initSubkeys = 0x0000000000000002#64 ∧
  ∀ s : State,
    (¬WidthLegal s →
      exec .initSubkeys s = .next { s with status := completedStatus .badWidth s.status }) ∧
    (WidthLegal s → ¬RoundsLegal s →
      exec .initSubkeys s = .next { s with status := completedStatus .badRounds s.status }) ∧
    (WidthLegal s → RoundsLegal s → ∃ t : State, exec .initSubkeys s = .next t ∧
      SubHolds (2 * (s.snapR + 1)) (initialFill s.snapW s.snapR) t ∧
      MagicIs s.snapW t ∧ SchedIs .init s.snapW s.snapR t ∧ t.status = completedStatus .ok s.status ∧
      SameSubFrom (2 * (s.snapR + 1)) s t ∧ SameMsgFrom 0 s t ∧ SameBlock s t ∧ SameOutsideEngine s t)

/-- R117, R120: the mix, as sequences indexed by the iteration `n`: `i = n mod t`, `j = n mod c`, the array `S` and
the working copy `L` updated at one index each, `3 * max(t, c)` iterations, the final `S` kept. -/
def Obligations.MixIsTheInterleavedUpdate : Prop :=
  ∀ (w : Nat) (sub key : List Nat), sub ≠ [] → key ≠ [] →
    ∃ (A B : Nat → Nat) (S L : Nat → Nat → Nat),
      A 0 = 0 ∧ B 0 = 0 ∧
      (∀ k, S 0 k = sub.getD k 0) ∧ (∀ k, L 0 k = key.getD k 0) ∧
      (∀ n, n < 3 * max sub.length key.length →
        A (n + 1) = rotlW w (addW w (addW w (S n (n % sub.length)) (A n)) (B n)) 3 ∧
        B (n + 1) = rotlW w (addW w (addW w (L n (n % key.length)) (A (n + 1))) (B n))
          (addW w (A (n + 1)) (B n)) ∧
        (∀ k, S (n + 1) k = if k = n % sub.length then A (n + 1) else S n k) ∧
        (∀ k, L (n + 1) k = if k = n % key.length then B (n + 1) else L n k)) ∧
      (mixWords w sub key).length = sub.length ∧
      ∀ k, k < sub.length → (mixWords w sub key).getD k 0 = S (3 * max sub.length key.length) k

/-- R118: the rotation of `A`'s update is by 3 for `w >= 4`, by 1 for `w = 2`, and none for `w = 1` and `w = 3`. -/
def Obligations.RotationOfAByWidth : Prop :=
  ∀ w x : Nat, x < 2 ^ w →
    (4 ≤ w → rotlW w x 3 = x * 8 % 2 ^ w + x / 2 ^ (w - 3)) ∧
    (w = 2 → rotlW w x 3 = x * 2 % 4 + x / 2) ∧
    (w = 1 ∨ w = 3 → rotlW w x 3 = x)

/-- R121: MIX_KEY, on the width and round count the fill was made with. -/
def Obligations.MixKeyMixesTheStoredFill : Prop :=
  encode .mixKey = 0x0000000000000003#64 ∧
  ∀ s : State,
    (s.sched.state ≠ .init →
      exec .mixKey s = .next { s with status := completedStatus .noSchedule s.status }) ∧
    (s.sched.state = .init → s.snapC = 0 →
      exec .mixKey s = .next { s with status := completedStatus .invalidKey s.status }) ∧
    (s.sched.state = .init → s.params.kmax < s.snapC → s.snapC ≠ 0 →
      exec .mixKey s = .next { s with status := completedStatus .keyTooLong s.status }) ∧
    (s.sched.state = .init → KeyLegal s → ∃ t : State, exec .mixKey s = .next t ∧
      SubHolds (2 * (s.sched.sr.toNat + 1))
        (mixWords s.sched.sw.toNat
          ((List.range (2 * (s.sched.sr.toNat + 1))).map fun k => wordOf s.sched.sw.toNat (s.subCell k))
          ((List.range s.snapC).map fun j => wordOf s.sched.sw.toNat (s.keyCell j))) t ∧
      SchedIs .ready s.sched.sw.toNat s.sched.sr.toNat t ∧ SameMagic s t ∧
      t.status = completedStatus .ok s.status ∧
      SameSubFrom (2 * (s.sched.sr.toNat + 1)) s t ∧ SameMsgFrom 0 s t ∧ SameBlock s t ∧ SameOutsideEngine s t)

/-- R126: BUILD_SCHEDULE. -/
def Obligations.BuildScheduleBuildsFromTheKey : Prop :=
  encode .buildSchedule = 0x0000000000000004#64 ∧
  ∀ s : State,
    (ruleError .buildSchedule s ≠ .ok →
      exec .buildSchedule s =
        .next { s with status := completedStatus (ruleError .buildSchedule s) s.status }) ∧
    (WidthLegal s → RoundsLegal s → KeyLegal s → ∃ t : State, exec .buildSchedule s = .next t ∧
      SubHolds (2 * (s.snapR + 1))
        (mixWords s.snapW (initialFill s.snapW s.snapR)
          ((List.range s.snapC).map fun j => wordOf s.snapW (s.keyCell j))) t ∧
      MagicIs s.snapW t ∧ SchedIs .ready s.snapW s.snapR t ∧ t.status = completedStatus .ok s.status ∧
      SameSubFrom (2 * (s.snapR + 1)) s t ∧ SameMsgFrom 0 s t ∧ SameBlock s t ∧ SameOutsideEngine s t)

/-- R126: BUILD_SCHEDULE leaves the very state that INIT_SUBKEYS followed by MIX_KEY leaves, with the same CFG. -/
def Obligations.BuildEqualsInitThenMix : Prop :=
  ∀ s : State, s.params.wellFormed = true → WidthLegal s → RoundsLegal s → KeyLegal s →
    ∃ t u : State, exec .initSubkeys s = .next t ∧ exec .mixKey t = .next u ∧
      exec .buildSchedule s = .next u ∧ u.status.err = .ok

/-- R122, R125: two BUILD_SCHEDULEs with the same width, round count and key words give the same subkeys, whatever
else the two states hold, their parameters, MLEN and the key bits above the width among it. -/
def Obligations.BuildIsRepeatable : Prop :=
  ∀ s t : State, WidthLegal s → RoundsLegal s → KeyLegal s → WidthLegal t → RoundsLegal t → KeyLegal t →
    t.snapW = s.snapW → t.snapR = s.snapR → t.snapC = s.snapC →
    (∀ j, j < s.snapC → wordOf s.snapW (t.keyCell j) = wordOf s.snapW (s.keyCell j)) →
    ∃ s' t' : State, exec .buildSchedule s = .next s' ∧ exec .buildSchedule t = .next t' ∧
      (∀ k, k < 2 * (s.snapR + 1) → t'.subCell k = s'.subCell k) ∧
      (∀ j, s'.keyCell j = s.keyCell j) ∧ (∀ j, t'.keyCell j = t.keyCell j) ∧ t'.sched = s'.sched ∧ t'.magicP = s'.magicP ∧ t'.magicQ = s'.magicQ

/-! ### The round transform -/

/-- R135, R136, R137: encryption and decryption as sequences of halves indexed by the round. -/
def Obligations.RoundsFollowTheRecurrence : Prop :=
  ∀ (w r : Nat) (sub : List Nat) (a b : Nat),
    (∃ A B : Nat → Nat,
      A 0 = addW w a (sub.getD 0 0) ∧ B 0 = addW w b (sub.getD 1 0) ∧
      (∀ i, 1 ≤ i → i ≤ r →
        A i = addW w (rotlW w (A (i - 1) ^^^ B (i - 1)) (B (i - 1))) (sub.getD (2 * i) 0) ∧
        B i = addW w (rotlW w (B (i - 1) ^^^ A i) (A i)) (sub.getD (2 * i + 1) 0)) ∧
      encBlockWords w r sub (a, b) = (A r, B r)) ∧
    (∃ A B : Nat → Nat,
      A r = a ∧ B r = b ∧
      (∀ i, 1 ≤ i → i ≤ r →
        B (i - 1) = rotrW w (subW w (B i) (sub.getD (2 * i + 1) 0)) (A i) ^^^ A i ∧
        A (i - 1) = rotrW w (subW w (A i) (sub.getD (2 * i) 0)) (B (i - 1)) ^^^ B (i - 1)) ∧
      decBlockWords w r sub (a, b) = (subW w (A 0) (sub.getD 0 0), subW w (B 0) (sub.getD 1 0)))

/-- R138: the central correctness invariant of the engine, in both directions. -/
def Obligations.DecryptionInvertsEncryption : Prop :=
  ∀ (w r : Nat) (sub : List Nat) (a b : Nat), 1 ≤ w → a < 2 ^ w → b < 2 ^ w →
    sub.length = 2 * (r + 1) → (∀ x ∈ sub, x < 2 ^ w) →
    decBlockWords w r sub (encBlockWords w r sub (a, b)) = (a, b) ∧
    encBlockWords w r sub (decBlockWords w r sub (a, b)) = (a, b)

/-- R139: zero rounds. -/
def Obligations.ZeroRoundsOnlyWhiten : Prop :=
  ∀ (w : Nat) (sub : List Nat) (a b : Nat),
    encBlockWords w 0 sub (a, b) = (addW w a (sub.getD 0 0), addW w b (sub.getD 1 0)) ∧
    decBlockWords w 0 sub (a, b) = (subW w a (sub.getD 0 0), subW w b (sub.getD 1 0))

/-- R140: ENC_BLOCK. -/
def Obligations.EncBlockEncryptsInPlace : Prop :=
  encode .encBlock = 0x0000000000000005#64 ∧
  ∀ s : State,
    (s.sched.state ≠ .ready →
      exec .encBlock s = .next { s with status := completedStatus .noSchedule s.status }) ∧
    (s.sched.state = .ready → ∃ t : State, exec .encBlock s = .next t ∧
      (let w := s.sched.sw.toNat
       let r := s.sched.sr.toNat
       let ab := encBlockWords w r ((List.range (2 * (r + 1))).map fun k => wordOf w (s.subCell k))
         (s.dataL.toNat % 2 ^ w, s.dataR.toNat % 2 ^ w)
       t.dataL = zext64 ab.1 ∧ t.dataR = zext64 ab.2) ∧
      t.status = completedStatus .ok s.status ∧ t.sched = s.sched ∧ t.magicP = s.magicP ∧
      t.magicQ = s.magicQ ∧ SameSubFrom 0 s t ∧ SameMsgFrom 0 s t ∧ SameOutsideEngine s t)

/-- R142: DEC_BLOCK. -/
def Obligations.DecBlockDecryptsInPlace : Prop :=
  encode .decBlock = 0x0000000000000006#64 ∧
  ∀ s : State,
    (s.sched.state ≠ .ready →
      exec .decBlock s = .next { s with status := completedStatus .noSchedule s.status }) ∧
    (s.sched.state = .ready → ∃ t : State, exec .decBlock s = .next t ∧
      (let w := s.sched.sw.toNat
       let r := s.sched.sr.toNat
       let ab := decBlockWords w r ((List.range (2 * (r + 1))).map fun k => wordOf w (s.subCell k))
         (s.dataL.toNat % 2 ^ w, s.dataR.toNat % 2 ^ w)
       t.dataL = zext64 ab.1 ∧ t.dataR = zext64 ab.2) ∧
      t.status = completedStatus .ok s.status ∧ t.sched = s.sched ∧ t.magicP = s.magicP ∧
      t.magicQ = s.magicQ ∧ SameSubFrom 0 s t ∧ SameMsgFrom 0 s t ∧ SameOutsideEngine s t)

/-- R142, R138: ENC_BLOCK then DEC_BLOCK, with the schedule and the block as ENC_BLOCK left them, restore the low
`w` bits of the block registers and clear the bits above. -/
def Obligations.DecBlockRestoresTheBlock : Prop :=
  ∀ s : State, s.sched.state = .ready → 1 ≤ s.schedW → s.schedW ≤ 64 →
    ∃ t : State, exec .encBlock s = .next t ∧ t.status.err = .ok ∧
      ∀ u : State, u.sched = s.sched → u.dataL = t.dataL → u.dataR = t.dataR →
        (∀ k, k < 2 * (s.schedR + 1) → u.subCell k = s.subCell k) →
        ∃ v : State, exec .decBlock u = .next v ∧ v.status.err = .ok ∧
          v.dataL.toNat = s.dataL.toNat % 2 ^ s.schedW ∧ v.dataR.toNat = s.dataR.toNat % 2 ^ s.schedW

/-- R141, R223: the block commands do not depend on CFG or on the captured CFG; MIX_KEY depends on the captured CFG
by its KLEN field alone. -/
def Obligations.StoredScheduleIgnoresCfg : Prop :=
  ∀ (s : State) (c v : Cell),
    (∀ i, i = .encBlock ∨ i = .decBlock →
      ∃ t : State, exec i s = .next t ∧ exec i { s with cfg := c, snap := v } = .next { t with cfg := c, snap := v }) ∧
    (cfgKlen v = cfgKlen s.snap →
      ∃ t : State, exec .mixKey s = .next t ∧
        exec .mixKey { s with cfg := c, snap := v } = .next { t with cfg := c, snap := v })

/-! ### The block codec -/

/-- R155, R157: each block of a message is transformed on its own, first to last. -/
def Obligations.BlocksAreIndependent : Prop :=
  ∀ (w r : Nat) (sub msg : List Nat), msg.length % 2 = 0 →
    (encMsgWords w r sub msg).length = msg.length ∧ (decMsgWords w r sub msg).length = msg.length ∧
    ∀ k, 2 * k + 1 < msg.length →
      ((encMsgWords w r sub msg).getD (2 * k) 0, (encMsgWords w r sub msg).getD (2 * k + 1) 0) =
        encBlockWords w r sub (msg.getD (2 * k) 0, msg.getD (2 * k + 1) 0) ∧
      ((decMsgWords w r sub msg).getD (2 * k) 0, (decMsgWords w r sub msg).getD (2 * k + 1) 0) =
        decBlockWords w r sub (msg.getD (2 * k) 0, msg.getD (2 * k + 1) 0)

/-- R156: ENC_MSG. -/
def Obligations.EncMsgEncryptsInPlace : Prop :=
  encode .encMsg = 0x0000000000000007#64 ∧
  ∀ s : State,
    (ruleError .encMsg s ≠ .ok →
      exec .encMsg s = .next { s with status := completedStatus (ruleError .encMsg s) s.status }) ∧
    (WidthLegal s → RoundsLegal s → MessageLegal s → KeyLegal s → ∃ t : State, exec .encMsg s = .next t ∧
      (let sub := buildWords s.snapW s.snapR ((List.range s.snapC).map fun j => wordOf s.snapW (s.keyCell j))
       SubHolds (2 * (s.snapR + 1)) sub t ∧
       MsgHolds s.snapM
         (encMsgWords s.snapW s.snapR sub ((List.range s.snapM).map fun k => wordOf s.snapW (s.msgCell k))) t) ∧
      MagicIs s.snapW t ∧ SchedIs .ready s.snapW s.snapR t ∧ t.status = completedStatus .ok s.status ∧
      SameSubFrom (2 * (s.snapR + 1)) s t ∧ SameMsgFrom s.snapM s t ∧ SameBlock s t ∧ SameOutsideEngine s t)

/-- R158: DEC_MSG. -/
def Obligations.DecMsgDecryptsInPlace : Prop :=
  encode .decMsg = 0x0000000000000008#64 ∧
  ∀ s : State,
    (ruleError .decMsg s ≠ .ok →
      exec .decMsg s = .next { s with status := completedStatus (ruleError .decMsg s) s.status }) ∧
    (WidthLegal s → RoundsLegal s → MessageLegal s → KeyLegal s → ∃ t : State, exec .decMsg s = .next t ∧
      (let sub := buildWords s.snapW s.snapR ((List.range s.snapC).map fun j => wordOf s.snapW (s.keyCell j))
       SubHolds (2 * (s.snapR + 1)) sub t ∧
       MsgHolds s.snapM
         (decMsgWords s.snapW s.snapR sub ((List.range s.snapM).map fun k => wordOf s.snapW (s.msgCell k))) t) ∧
      MagicIs s.snapW t ∧ SchedIs .ready s.snapW s.snapR t ∧ t.status = completedStatus .ok s.status ∧
      SameSubFrom (2 * (s.snapR + 1)) s t ∧ SameMsgFrom s.snapM s t ∧ SameBlock s t ∧ SameOutsideEngine s t)

/-- R159: ENC_MSG then DEC_MSG, with the captured CFG, `KEY[0 .. c)` and the message unchanged between them,
complete without error and leave every message word as it was. -/
def Obligations.MessageRoundTrip : Prop :=
  ∀ s : State, s.params.wellFormed = true →
    WidthLegal s → RoundsLegal s → MessageLegal s → KeyLegal s →
    ∃ t : State, exec .encMsg s = .next t ∧ t.status.err = .ok ∧
      ∀ u : State, u.params = s.params → u.snap = s.snap →
        (∀ j, j < s.snapC → u.keyCell j = s.keyCell j) → (∀ k, k < s.snapM → u.msgCell k = t.msgCell k) →
        ∃ v : State, exec .decMsg u = .next v ∧ v.status.err = .ok ∧
          ∀ k, k < s.snapM → wordOf s.snapW (v.msgCell k) = wordOf s.snapW (s.msgCell k)

/-! ### Control and errors -/

/-- R171: NOP, from its start to its completion, changes STATUS and the hidden command state alone; its own
completion changes STATUS alone. -/
def Obligations.NopOnlyCompletes : Prop :=
  encode .nop = 0x0000000000000000#64 ∧
  (∀ s : State, exec .nop s = .next { s with status := completedStatus .ok s.status }) ∧
  (∀ (s : State) (rest : List Turn), s.status.busy = false →
    s.turns = .write 0x20#19 0#64 :: .engine :: rest →
    RunsTo 2 s { s with
      turns := rest
      curCmd := 0#64
      snap := s.cfg
      status := { busy := false, done := true, wovr := s.status.wovr, err := .ok, lastop := 0#8 } })

/-- R180, R184: every command, and every illegal word, reports the first error that applies in the order of the
table, and no error has a code above 8. -/
def Obligations.FirstErrorInTheRuleOrder : Prop :=
  (∀ (i : Instr) (s : State), ∃ t : State, exec i s = .next t ∧ t.status.err = ruleError i s) ∧
  (∀ (s : State) (rest : List Turn), s.status.busy = true →
    (s.turns = .engine :: rest ∨ s.turns = []) →
    (s.curCmd.extractLsb' 8 56 ≠ 0#56 ∨ 9 ≤ (s.curCmd.extractLsb' 0 8).toNat) →
    ∃ t : State, step s = .next t ∧ t.status.err = .illegalCommand) ∧
  codeOf .ok = 0#8 ∧ codeOf .invalidMessageLength = 1#8 ∧ codeOf .invalidKey = 2#8 ∧
  codeOf .illegalCommand = 3#8 ∧ codeOf .badWidth = 4#8 ∧ codeOf .badRounds = 5#8 ∧
  codeOf .keyTooLong = 6#8 ∧ codeOf .messageTooLong = 7#8 ∧ codeOf .noSchedule = 8#8 ∧
  ∀ e : ErrCode, (codeOf e).toNat ≤ 8

/-- R175: a command that ends with an error changes nothing but STATUS. -/
def Obligations.ErrorsChangeOnlyStatus : Prop :=
  (∀ (i : Instr) (s t : State), exec i s = .next t → t.status.err ≠ .ok → t = { s with status := t.status }) ∧
  (∀ s t : State, step s = .next t → s.status.busy = true →
    (s.turns = [] ∨ ∃ rest, s.turns = .engine :: rest) → t.status.err ≠ .ok →
    t = { s with status := t.status, turns := t.turns, later := t.later })

/-- R83, R176: the frame of every command: what each leaves unchanged. -/
def Obligations.EachCommandWritesOnlyItsRow : Prop :=
  ∀ (i : Instr) (s t : State), exec i s = .next t →
    SameOutsideEngine s t ∧
    t.status = completedStatus t.status.err s.status ∧
    (i = .nop ∨ i = .mixKey ∨ i = .encBlock ∨ i = .decBlock → SameMagic s t) ∧
    (i = .nop ∨ i = .genMagic ∨ i = .encBlock ∨ i = .decBlock →
      SchedIs s.sched.state s.schedW s.schedR t ∧ SameSubFrom 0 s t) ∧
    (i = .mixKey → t.schedW = s.schedW ∧ t.schedR = s.schedR ∧ SameSubFrom (2 * (s.schedR + 1)) s t) ∧
    (i = .initSubkeys ∨ i = .buildSchedule ∨ i = .encMsg ∨ i = .decMsg →
      SameSubFrom (2 * (s.snapR + 1)) s t) ∧
    (i ≠ .encBlock → i ≠ .decBlock → SameBlock s t) ∧
    (i ≠ .encMsg → i ≠ .decMsg → SameMsgFrom 0 s t) ∧
    (i = .encMsg ∨ i = .decMsg → SameMsgFrom s.snapM s t)

/-! ### Invariants -/

/-- R27, R45, R185: every step keeps the lifecycle invariant and the reserved bits of CFG. -/
def Obligations.StepKeepsTheLifecycle : Prop :=
  ∀ s t : State, LifecycleInv s → CfgReservedInv s → step s = .next t → LifecycleInv t ∧ CfgReservedInv t

/-- R39, R40, R41, R76: every step keeps the RAMs in canonical form and inside their sizes, from a state whose
schedule is as the schedule invariant says (MIX_KEY writes as many cells as SCHED.SR asks for). -/
def Obligations.StepKeepsTheRams : Prop :=
  ∀ s t : State, ScheduleInv s → RamInv s → step s = .next t → RamInv t

/-- R109: every step keeps the invariant of the magic pair. -/
def Obligations.StepKeepsTheMagicPair : Prop :=
  ∀ s t : State, MagicInv s → step s = .next t → MagicInv t

/-- R37: every step keeps the invariant of the schedule. -/
def Obligations.StepKeepsTheSchedule : Prop :=
  ∀ s t : State, s.params.wellFormed = true → ScheduleInv s → step s = .next t → ScheduleInv t

/-- The four invariants hold after power-on reset, for every choice of the build-time parameters, and the default
parameters are legal. -/
def Obligations.PowerOnHasTheInvariants : Prop :=
  Params.default.wellFormed = true ∧
  ∀ p : Params,
    LifecycleInv (State.powerOn p) ∧ CfgReservedInv (State.powerOn p) ∧ RamInv (State.powerOn p) ∧
    MagicInv (State.powerOn p) ∧ ScheduleInv (State.powerOn p)

/-! ### Runs without end -/

/-- R228: host accesses may go on without end, fairly. When the listed turns are used up the engine has its turn and
the next batch is listed: a repeated batch again, its turns then taken one at a time, for as many rounds as one likes;
of the free sequence, batch `n` and then the ones after it. (The batches are the model's choice, log 5.) -/
def Obligations.HostAccessesMayGoOnForever : Prop :=
  ∀ s : State, s.turns = [] →
    (∀ batch, s.later = .again batch →
      (∃ t : State, step s = .next t ∧ t.turns = batch ∧ t.later = .again batch) ∧
      (∀ k, k ≤ batch.length → ∃ t : State,
        RunsTo (k + 1) s t ∧ t.turns = batch.drop k ∧ t.later = .again batch) ∧
      ∀ rounds : Nat, ∃ t : State,
        RunsTo (rounds * (batch.length + 1)) s t ∧ t.turns = [] ∧ t.later = .again batch) ∧
    (∀ n, s.later = .free n → ∃ t : State,
      step s = .next t ∧ t.turns = Config.hostTurns n ∧ t.later = .free (n + 1))
end

