-- ==== Sys2Proof/Laws/Arith.lean ====
section
/-! SUPPORT. Words stay words: every operation of the engine on `w`-bit words gives a `w`-bit word, and reading
back a word that was written gives it. -/

namespace Sys2Proof.Machine

open Sys2Proof

theorem wordOf_lt (w : Nat) (x : Cell) : wordOf w x < 2 ^ w := Nat.mod_lt _ (Nat.two_pow_pos w)

theorem addW_lt (w a b : Nat) : addW w a b < 2 ^ w := Nat.mod_lt _ (Nat.two_pow_pos w)

theorem subW_lt (w a b : Nat) : subW w a b < 2 ^ w := Nat.mod_lt _ (Nat.two_pow_pos w)

/-- A `w`-bit word written to a cell and read back (00_scope.md R9). -/
theorem wordOf_zext64 {w v : Nat} (hw : w ≤ 64) (hv : v < 2 ^ w) : wordOf w (zext64 v) = v := by
  have : v < 2 ^ 64 := Nat.lt_of_lt_of_le hv (Nat.pow_le_pow_right (by decide) hw)
  simp only [wordOf, zext64, BitVec.toNat_ofNat, Nat.mod_eq_of_lt this, Nat.mod_eq_of_lt hv]

/-- The two parts of a rotation, by the amount: `s` low bits move up, `w - s` stay. -/
theorem split_lt {w s x : Nat} (hs : s ≤ w) (hx : x < 2 ^ w) :
    x % 2 ^ (w - s) * 2 ^ s + x / 2 ^ (w - s) < 2 ^ w := by
  have h1 : x % 2 ^ (w - s) < 2 ^ (w - s) := Nat.mod_lt _ (Nat.two_pow_pos _)
  have h2 : x / 2 ^ (w - s) < 2 ^ s := by
    apply Nat.div_lt_of_lt_mul; rw [← Nat.pow_add]; simpa [Nat.sub_add_cancel hs] using hx
  have h3 : 2 ^ (w - s) * 2 ^ s = 2 ^ w := by rw [← Nat.pow_add, Nat.sub_add_cancel hs]
  have h4 : (x % 2 ^ (w - s) + 1) * 2 ^ s ≤ 2 ^ (w - s) * 2 ^ s := Nat.mul_le_mul_right _ h1
  rw [Nat.add_mul] at h4
  omega

theorem mul_pow_mod {w s : Nat} (hs : s ≤ w) (x : Nat) :
    x * 2 ^ s % 2 ^ w = x % 2 ^ (w - s) * 2 ^ s := by
  conv_lhs => rw [← Nat.sub_add_cancel hs, Nat.pow_add]
  rw [Nat.mul_mod_mul_right]

theorem rotlW_lt {w x : Nat} (n : Nat) (hw : 0 < w) (hx : x < 2 ^ w) : rotlW w x n < 2 ^ w := by
  unfold rotlW
  split
  · exact hx
  · have hs : n % w ≤ w := Nat.le_of_lt (Nat.mod_lt _ hw)
    rw [mul_pow_mod hs]; exact split_lt hs hx

theorem rotrW_lt {w x : Nat} (n : Nat) (hw : 0 < w) (hx : x < 2 ^ w) : rotrW w x n < 2 ^ w := by
  unfold rotrW
  split
  · exact hx
  · have hs : n % w ≤ w := Nat.le_of_lt (Nat.mod_lt _ hw)
    rw [mul_pow_mod (Nat.sub_le _ _), Nat.add_comm]
    have := split_lt (s := w - n % w) (Nat.sub_le _ _) hx
    rwa [Nat.sub_sub_self hs] at *

theorem xorW_lt {w a b : Nat} (ha : a < 2 ^ w) (hb : b < 2 ^ w) : a ^^^ b < 2 ^ w := Nat.xor_lt_two_pow ha hb

theorem magicP_lt (w : Nat) : magicP w < 2 ^ w := by
  unfold magicP
  have h := Int.emod_lt_of_pos (oddAdjust (magicXp w)) (show (0 : Int) < 2 ^ w by positivity)
  have : ((2 : Int) ^ w) = ((2 ^ w : Nat) : Int) := by push_cast; rfl
  have h0 := Int.emod_nonneg (oddAdjust (magicXp w)) (show (2 ^ w : Int) ≠ 0 by positivity)
  omega

theorem magicQ_lt (w : Nat) : magicQ w < 2 ^ w := by
  unfold magicQ
  have h := Int.emod_lt_of_pos (oddAdjustDown (magicXq w)) (show (0 : Int) < 2 ^ w by positivity)
  have : ((2 : Int) ^ w) = ((2 ^ w : Nat) : Int) := by push_cast; rfl
  have h0 := Int.emod_nonneg (oddAdjustDown (magicXq w)) (show (2 ^ w : Int) ≠ 0 by positivity)
  omega

end Sys2Proof.Machine
end

