-- ==== Sys2Proof/Laws/Cipher.lean ====
section
/-! SUPPORT. The shapes of the cipher's arrays: how long they are, and that their words are words. -/

namespace Sys2Proof.Machine

open Sys2Proof

@[simp] theorem fillFrom_length (w q : Nat) : ∀ n x, (fillFrom w q n x).length = n
  | 0, _ => rfl
  | n + 1, x => by simp [fillFrom, fillFrom_length w q n]

@[simp] theorem initialFill_length (w r : Nat) : (initialFill w r).length = 2 * (r + 1) := fillFrom_length ..

theorem fillFrom_words {w q : Nat} : ∀ {n x : Nat}, x < 2 ^ w → ∀ y ∈ fillFrom w q n x, y < 2 ^ w
  | 0, _, _, y, h => by simp [fillFrom] at h
  | n + 1, x, hx, y, h => by
    rcases List.mem_cons.1 h with h | h
    · exact h ▸ hx
    · exact fillFrom_words (addW_lt ..) y h

theorem initialFill_words (w r : Nat) : ∀ y ∈ initialFill w r, y < 2 ^ w := fillFrom_words (magicP_lt w)

@[simp] theorem mixStep_subkeys_length (w : Nat) (m : Mixing) :
    (mixStep w m).subkeys.length = m.subkeys.length := by simp [mixStep]

@[simp] theorem mixStep_keyCopy_length (w : Nat) (m : Mixing) :
    (mixStep w m).keyCopy.length = m.keyCopy.length := by simp [mixStep]

@[simp] theorem mixLoop_subkeys_length (w : Nat) : ∀ n m, (mixLoop w n m).subkeys.length = m.subkeys.length
  | 0, _ => rfl
  | n + 1, m => by simp [mixLoop, mixLoop_subkeys_length w n]

@[simp] theorem mixWords_length (w : Nat) (sub key : List Nat) : (mixWords w sub key).length = sub.length := by
  simp [mixWords, mixStart]

@[simp] theorem buildWords_length (w r : Nat) (key : List Nat) : (buildWords w r key).length = 2 * (r + 1) := by
  simp [buildWords]

theorem mixStep_words {w : Nat} (hw : 0 < w) {m : Mixing} (h : ∀ y ∈ m.subkeys, y < 2 ^ w) :
    ∀ y ∈ (mixStep w m).subkeys, y < 2 ^ w := by
  intro y hy
  rcases List.mem_or_eq_of_mem_set hy with hy | hy
  · exact h y hy
  · exact hy ▸ rotlW_lt _ hw (addW_lt ..)

theorem mixLoop_words {w : Nat} (hw : 0 < w) : ∀ {n : Nat} {m : Mixing}, (∀ y ∈ m.subkeys, y < 2 ^ w) →
    ∀ y ∈ (mixLoop w n m).subkeys, y < 2 ^ w
  | 0, _, h => h
  | n + 1, m, h => mixLoop_words (n := n) (m := mixStep w m) hw (mixStep_words hw h)

theorem mixWords_words {w : Nat} (hw : 0 < w) {sub : List Nat} (key : List Nat) (h : ∀ y ∈ sub, y < 2 ^ w) :
    ∀ y ∈ mixWords w sub key, y < 2 ^ w := mixLoop_words hw h

theorem buildWords_words {w : Nat} (hw : 0 < w) (r : Nat) (key : List Nat) :
    ∀ y ∈ buildWords w r key, y < 2 ^ w := mixWords_words hw key (initialFill_words w r)

@[simp] theorem mapBlocks_length (f : Nat × Nat → Nat × Nat) : ∀ ws, (mapBlocks f ws).length = ws.length
  | [] => rfl
  | [_] => rfl
  | _ :: _ :: rest => by simp [mapBlocks, mapBlocks_length f rest]

@[simp] theorem encMsgWords_length (w r : Nat) (sub msg : List Nat) :
    (encMsgWords w r sub msg).length = msg.length := mapBlocks_length ..

@[simp] theorem decMsgWords_length (w r : Nat) (sub msg : List Nat) :
    (decMsgWords w r sub msg).length = msg.length := mapBlocks_length ..

end Sys2Proof.Machine
end

