-- ==== Sys2Proof/Laws/Memory.lean ====
section
/-! SUPPORT. What a RAM operation can do: reading after writing, the canonical form, and the range of indices. -/

namespace Sys2Proof.Machine

open Sys2Proof

@[simp] theorem Memory.read?_nil (i : Nat) : Memory.read? [] i = none := rfl

theorem Memory.read?_write (m : Memory) (i j : Nat) (v : Cell) :
    (m.write i v).read? j = if j = i then some v else m.read? j := by
  induction m with
  | nil => simp [Memory.write, Memory.read?]
  | cons e rest ih => obtain ⟨k, x⟩ := e; grind [Memory.write, Memory.read?]

@[simp] theorem Memory.read?_write_self (m : Memory) (i : Nat) (v : Cell) :
    (m.write i v).read? i = some v := by simp [Memory.read?_write]

theorem Memory.read?_write_other (m : Memory) {i j : Nat} (v : Cell) (h : j ≠ i) :
    (m.write i v).read? j = m.read? j := by simp [Memory.read?_write, h]

/-- A write of consecutive cells: the cells of the range hold the list, every other cell is as before. -/
theorem Memory.read?_writeFrom (vs : List Cell) : ∀ (m : Memory) (i j : Nat),
    (m.writeFrom i vs).read? j = if i ≤ j ∧ j < i + vs.length then vs[j - i]? else m.read? j := by
  induction vs with
  | nil => intro m i j; simp [Memory.writeFrom]
  | cons v vs ih =>
    intro m i j
    simp only [Memory.writeFrom, ih, Memory.read?_write, List.length_cons]
    by_cases h1 : i + 1 ≤ j ∧ j < i + 1 + vs.length
    · have h2 : i ≤ j ∧ j < i + (vs.length + 1) := by omega
      have h3 : j - i = j - (i + 1) + 1 := by omega
      simp [h1, h2, h3]
    · rw [if_neg h1]
      by_cases h2 : j = i
      · subst h2; simp
      · rw [if_neg h2, if_neg (by omega)]

theorem Memory.cell_write (ram : RamId) (m : Memory) (i j : Nat) (v : Cell) :
    Memory.cell ram (m.write i v) j = if j = i then v else Memory.cell ram m j := by
  unfold Memory.cell
  rw [Memory.read?_write]
  by_cases h : j = i <;> simp [h]

theorem Memory.cell_writeFrom (ram : RamId) (m : Memory) (vs : List Cell) (j : Nat) :
    Memory.cell ram (m.writeFrom 0 vs) j = if j < vs.length then vs.getD j 0#64 else Memory.cell ram m j := by
  unfold Memory.cell
  rw [Memory.read?_writeFrom]
  by_cases h : j < vs.length
  · simp [h]
  · simp [h]

theorem Memory.cell_writeWords (ram : RamId) (m : Memory) (ws : List Nat) (j : Nat) :
    Memory.cell ram (m.writeFrom 0 (ws.map zext64)) j =
      if j < ws.length then zext64 (ws.getD j 0) else Memory.cell ram m j := by
  rw [Memory.cell_writeFrom]
  by_cases h : j < ws.length <;> simp [h]

/-- The last write of a cell wins. -/
theorem Memory.write_write_self (m : Memory) (i : Nat) (u v : Cell) :
    (m.write i u).write i v = m.write i v := by
  induction m with
  | nil => simp [Memory.write]
  | cons e rest ih =>
    obtain ⟨k, x⟩ := e
    simp only [Memory.write]
    split
    · simp [Memory.write]
    · split
      · simp [Memory.write]
      · rename_i h1 h2; simp [Memory.write, h1, h2, ih]

/-- Writes of different cells commute. -/
theorem Memory.write_comm (m : Memory) {i j : Nat} (u v : Cell) (h : i ≠ j) :
    (m.write i u).write j v = (m.write j v).write i u := by
  induction m with
  | nil => grind [Memory.write]
  | cons e rest ih => obtain ⟨k, x⟩ := e; grind [Memory.write]

theorem Memory.write_writeFrom (vs : List Cell) : ∀ (m : Memory) (i k : Nat) (u : Cell), k < i →
    (m.writeFrom i vs).write k u = (m.write k u).writeFrom i vs := by
  induction vs with
  | nil => intros; rfl
  | cons v vs ih =>
    intro m i k u h
    simp only [Memory.writeFrom]
    rw [ih _ _ _ _ (by omega), Memory.write_comm _ _ _ (by omega)]

/-- Writing a range again, with as many cells, leaves nothing of the first write. -/
theorem Memory.writeFrom_writeFrom (us : List Cell) : ∀ (vs : List Cell) (m : Memory) (i : Nat),
    us.length = vs.length → (m.writeFrom i us).writeFrom i vs = m.writeFrom i vs := by
  induction us with
  | nil => intro vs m i h; cases vs <;> simp_all [Memory.writeFrom]
  | cons u us ih =>
    intro vs m i h
    cases vs with
    | nil => simp at h
    | cons v vs =>
      simp only [Memory.writeFrom]
      rw [Memory.write_writeFrom _ _ _ _ _ (by omega), Memory.write_write_self, ih _ _ _ (by simpa using h)]

theorem Memory.mem_write {m : Memory} {i : Nat} {v : Cell} {e : Nat × Cell} (h : e ∈ m.write i v) :
    e = (i, v) ∨ e ∈ m := by
  induction m with
  | nil => simpa [Memory.write] using h
  | cons d rest ih =>
    obtain ⟨k, x⟩ := d
    simp only [Memory.write] at h
    split at h
    · simpa using h
    · split at h
      · rcases List.mem_cons.1 h with h | h <;> simp [h]
      · rcases List.mem_cons.1 h with h | h
        · simp [h]
        · rcases ih h with h | h <;> simp [h]

/-- A write keeps the canonical form. -/
theorem Memory.wf_write {m : Memory} (h : m.wf) (i : Nat) (v : Cell) : (m.write i v).wf := by
  induction m with
  | nil => simp [Memory.write, Memory.wf]
  | cons d rest ih =>
    obtain ⟨k, x⟩ := d
    have hd := List.pairwise_cons.1 h
    simp only [Memory.write]
    split
    · rename_i hi
      refine List.pairwise_cons.2 ⟨?_, h⟩
      intro e he
      rcases List.mem_cons.1 he with he | he
      · simpa [he] using hi
      · exact Nat.lt_trans hi (hd.1 e he)
    · split
      · rename_i hi
        refine List.pairwise_cons.2 ⟨?_, hd.2⟩
        intro e he
        simpa [hi] using hd.1 e he
      · refine List.pairwise_cons.2 ⟨?_, ih hd.2⟩
        intro e he
        rcases Memory.mem_write he with he | he
        · simp only [he]; omega
        · exact hd.1 e he

theorem Memory.wf_writeFrom (vs : List Cell) : ∀ {m : Memory}, m.wf → ∀ i, (m.writeFrom i vs).wf := by
  induction vs with
  | nil => intro m h i; exact h
  | cons v vs ih => intro m h i; exact ih (Memory.wf_write h i v) (i + 1)

theorem Memory.mem_writeFrom (vs : List Cell) : ∀ {m : Memory} {i : Nat} {e : Nat × Cell},
    e ∈ m.writeFrom i vs → e.1 < i + vs.length ∨ e ∈ m := by
  induction vs with
  | nil => intro m i e h; exact .inr h
  | cons v vs ih =>
    intro m i e h
    rcases ih h with h | h
    · left; simp only [List.length_cons]; omega
    · rcases Memory.mem_write h with h | h
      · left; simp [h]
      · exact .inr h

theorem Memory.wf_lose (ram : RamId) (d n : Nat) {m : Memory} (h : m.wf) : (m.lose ram d n).wf :=
  Memory.wf_writeFrom _ h 0

/-- A reset's loss: the first cells take the draw's free values, every other cell is as before. -/
theorem Memory.cell_lose (ram : RamId) (d n : Nat) (m : Memory) (j : Nat) :
    Memory.cell ram (m.lose ram d n) j = if j < n then Config.lostCell ram d j else Memory.cell ram m j := by
  unfold Memory.lose
  rw [Memory.cell_writeFrom]
  by_cases h : j < n <;> simp [h]

theorem Memory.mem_lose {ram : RamId} {d n : Nat} {m : Memory} {e : Nat × Cell} (h : e ∈ m.lose ram d n) :
    e.1 < n ∨ e ∈ m := by
  have := Memory.mem_writeFrom _ h
  simpa using this

end Sys2Proof.Machine
end

