-- ==== Sys2Proof/Laws/State.lean ====
section
/-! SUPPORT. The state's updates, field by field: one lemma for each field after each named update. -/

namespace Sys2Proof.Machine

open Sys2Proof

section writeSubLaws

variable (ws : List Nat) (s : State)

@[simp] theorem State.writeSub_params : (s.writeSub ws).params = s.params := rfl
@[simp] theorem State.writeSub_ie : (s.writeSub ws).ie = s.ie := rfl
@[simp] theorem State.writeSub_cfg : (s.writeSub ws).cfg = s.cfg := rfl
@[simp] theorem State.writeSub_status : (s.writeSub ws).status = s.status := rfl
@[simp] theorem State.writeSub_magicP : (s.writeSub ws).magicP = s.magicP := rfl
@[simp] theorem State.writeSub_magicQ : (s.writeSub ws).magicQ = s.magicQ := rfl
@[simp] theorem State.writeSub_sched : (s.writeSub ws).sched = s.sched := rfl
@[simp] theorem State.writeSub_dataL : (s.writeSub ws).dataL = s.dataL := rfl
@[simp] theorem State.writeSub_dataR : (s.writeSub ws).dataR = s.dataR := rfl
@[simp] theorem State.writeSub_keyRam : (s.writeSub ws).keyRam = s.keyRam := rfl
@[simp] theorem State.writeSub_sRam : (s.writeSub ws).sRam = s.sRam.writeFrom 0 (ws.map zext64) := rfl
@[simp] theorem State.writeSub_msgRam : (s.writeSub ws).msgRam = s.msgRam := rfl
@[simp] theorem State.writeSub_curCmd : (s.writeSub ws).curCmd = s.curCmd := rfl
@[simp] theorem State.writeSub_snap : (s.writeSub ws).snap = s.snap := rfl
@[simp] theorem State.writeSub_turns : (s.writeSub ws).turns = s.turns := rfl
@[simp] theorem State.writeSub_later : (s.writeSub ws).later = s.later := rfl
@[simp] theorem State.writeSub_readData : (s.writeSub ws).readData = s.readData := rfl
@[simp] theorem State.writeSub_draws : (s.writeSub ws).draws = s.draws := rfl

end writeSubLaws

section writeMsgLaws

variable (ws : List Nat) (s : State)

@[simp] theorem State.writeMsg_params : (s.writeMsg ws).params = s.params := rfl
@[simp] theorem State.writeMsg_ie : (s.writeMsg ws).ie = s.ie := rfl
@[simp] theorem State.writeMsg_cfg : (s.writeMsg ws).cfg = s.cfg := rfl
@[simp] theorem State.writeMsg_status : (s.writeMsg ws).status = s.status := rfl
@[simp] theorem State.writeMsg_magicP : (s.writeMsg ws).magicP = s.magicP := rfl
@[simp] theorem State.writeMsg_magicQ : (s.writeMsg ws).magicQ = s.magicQ := rfl
@[simp] theorem State.writeMsg_sched : (s.writeMsg ws).sched = s.sched := rfl
@[simp] theorem State.writeMsg_dataL : (s.writeMsg ws).dataL = s.dataL := rfl
@[simp] theorem State.writeMsg_dataR : (s.writeMsg ws).dataR = s.dataR := rfl
@[simp] theorem State.writeMsg_keyRam : (s.writeMsg ws).keyRam = s.keyRam := rfl
@[simp] theorem State.writeMsg_sRam : (s.writeMsg ws).sRam = s.sRam := rfl
@[simp] theorem State.writeMsg_msgRam : (s.writeMsg ws).msgRam = s.msgRam.writeFrom 0 (ws.map zext64) := rfl
@[simp] theorem State.writeMsg_curCmd : (s.writeMsg ws).curCmd = s.curCmd := rfl
@[simp] theorem State.writeMsg_snap : (s.writeMsg ws).snap = s.snap := rfl
@[simp] theorem State.writeMsg_turns : (s.writeMsg ws).turns = s.turns := rfl
@[simp] theorem State.writeMsg_later : (s.writeMsg ws).later = s.later := rfl
@[simp] theorem State.writeMsg_readData : (s.writeMsg ws).readData = s.readData := rfl
@[simp] theorem State.writeMsg_draws : (s.writeMsg ws).draws = s.draws := rfl

end writeMsgLaws

section writeMagicLaws

variable (w : Nat) (s : State)

@[simp] theorem State.writeMagic_params : (s.writeMagic w).params = s.params := rfl
@[simp] theorem State.writeMagic_ie : (s.writeMagic w).ie = s.ie := rfl
@[simp] theorem State.writeMagic_cfg : (s.writeMagic w).cfg = s.cfg := rfl
@[simp] theorem State.writeMagic_status : (s.writeMagic w).status = s.status := rfl
@[simp] theorem State.writeMagic_magicP : (s.writeMagic w).magicP = zext64 (Sys2Proof.Machine.magicP w) := rfl
@[simp] theorem State.writeMagic_magicQ : (s.writeMagic w).magicQ = zext64 (Sys2Proof.Machine.magicQ w) := rfl
@[simp] theorem State.writeMagic_sched : (s.writeMagic w).sched = { s.sched with mw := BitVec.ofNat 7 w, mvalid := true } := rfl
@[simp] theorem State.writeMagic_dataL : (s.writeMagic w).dataL = s.dataL := rfl
@[simp] theorem State.writeMagic_dataR : (s.writeMagic w).dataR = s.dataR := rfl
@[simp] theorem State.writeMagic_keyRam : (s.writeMagic w).keyRam = s.keyRam := rfl
@[simp] theorem State.writeMagic_sRam : (s.writeMagic w).sRam = s.sRam := rfl
@[simp] theorem State.writeMagic_msgRam : (s.writeMagic w).msgRam = s.msgRam := rfl
@[simp] theorem State.writeMagic_curCmd : (s.writeMagic w).curCmd = s.curCmd := rfl
@[simp] theorem State.writeMagic_snap : (s.writeMagic w).snap = s.snap := rfl
@[simp] theorem State.writeMagic_turns : (s.writeMagic w).turns = s.turns := rfl
@[simp] theorem State.writeMagic_later : (s.writeMagic w).later = s.later := rfl
@[simp] theorem State.writeMagic_readData : (s.writeMagic w).readData = s.readData := rfl
@[simp] theorem State.writeMagic_draws : (s.writeMagic w).draws = s.draws := rfl

end writeMagicLaws

section writeSchedLaws

variable (w r : Nat) (st : SchedState) (s : State)

@[simp] theorem State.writeSched_params : (s.writeSched w r st).params = s.params := rfl
@[simp] theorem State.writeSched_ie : (s.writeSched w r st).ie = s.ie := rfl
@[simp] theorem State.writeSched_cfg : (s.writeSched w r st).cfg = s.cfg := rfl
@[simp] theorem State.writeSched_status : (s.writeSched w r st).status = s.status := rfl
@[simp] theorem State.writeSched_magicP : (s.writeSched w r st).magicP = s.magicP := rfl
@[simp] theorem State.writeSched_magicQ : (s.writeSched w r st).magicQ = s.magicQ := rfl
@[simp] theorem State.writeSched_sched : (s.writeSched w r st).sched = { s.sched with sw := BitVec.ofNat 7 w, sr := BitVec.ofNat 8 r, state := st } := rfl
@[simp] theorem State.writeSched_dataL : (s.writeSched w r st).dataL = s.dataL := rfl
@[simp] theorem State.writeSched_dataR : (s.writeSched w r st).dataR = s.dataR := rfl
@[simp] theorem State.writeSched_keyRam : (s.writeSched w r st).keyRam = s.keyRam := rfl
@[simp] theorem State.writeSched_sRam : (s.writeSched w r st).sRam = s.sRam := rfl
@[simp] theorem State.writeSched_msgRam : (s.writeSched w r st).msgRam = s.msgRam := rfl
@[simp] theorem State.writeSched_curCmd : (s.writeSched w r st).curCmd = s.curCmd := rfl
@[simp] theorem State.writeSched_snap : (s.writeSched w r st).snap = s.snap := rfl
@[simp] theorem State.writeSched_turns : (s.writeSched w r st).turns = s.turns := rfl
@[simp] theorem State.writeSched_later : (s.writeSched w r st).later = s.later := rfl
@[simp] theorem State.writeSched_readData : (s.writeSched w r st).readData = s.readData := rfl
@[simp] theorem State.writeSched_draws : (s.writeSched w r st).draws = s.draws := rfl

end writeSchedLaws

section writeSchedStateLaws

variable (st : SchedState) (s : State)

@[simp] theorem State.writeSchedState_params : (s.writeSchedState st).params = s.params := rfl
@[simp] theorem State.writeSchedState_ie : (s.writeSchedState st).ie = s.ie := rfl
@[simp] theorem State.writeSchedState_cfg : (s.writeSchedState st).cfg = s.cfg := rfl
@[simp] theorem State.writeSchedState_status : (s.writeSchedState st).status = s.status := rfl
@[simp] theorem State.writeSchedState_magicP : (s.writeSchedState st).magicP = s.magicP := rfl
@[simp] theorem State.writeSchedState_magicQ : (s.writeSchedState st).magicQ = s.magicQ := rfl
@[simp] theorem State.writeSchedState_sched : (s.writeSchedState st).sched = { s.sched with state := st } := rfl
@[simp] theorem State.writeSchedState_dataL : (s.writeSchedState st).dataL = s.dataL := rfl
@[simp] theorem State.writeSchedState_dataR : (s.writeSchedState st).dataR = s.dataR := rfl
@[simp] theorem State.writeSchedState_keyRam : (s.writeSchedState st).keyRam = s.keyRam := rfl
@[simp] theorem State.writeSchedState_sRam : (s.writeSchedState st).sRam = s.sRam := rfl
@[simp] theorem State.writeSchedState_msgRam : (s.writeSchedState st).msgRam = s.msgRam := rfl
@[simp] theorem State.writeSchedState_curCmd : (s.writeSchedState st).curCmd = s.curCmd := rfl
@[simp] theorem State.writeSchedState_snap : (s.writeSchedState st).snap = s.snap := rfl
@[simp] theorem State.writeSchedState_turns : (s.writeSchedState st).turns = s.turns := rfl
@[simp] theorem State.writeSchedState_later : (s.writeSchedState st).later = s.later := rfl
@[simp] theorem State.writeSchedState_readData : (s.writeSchedState st).readData = s.readData := rfl
@[simp] theorem State.writeSchedState_draws : (s.writeSchedState st).draws = s.draws := rfl

end writeSchedStateLaws

section writeBlockLaws

variable (ab : Nat × Nat) (s : State)

@[simp] theorem State.writeBlock_params : (s.writeBlock ab).params = s.params := rfl
@[simp] theorem State.writeBlock_ie : (s.writeBlock ab).ie = s.ie := rfl
@[simp] theorem State.writeBlock_cfg : (s.writeBlock ab).cfg = s.cfg := rfl
@[simp] theorem State.writeBlock_status : (s.writeBlock ab).status = s.status := rfl
@[simp] theorem State.writeBlock_magicP : (s.writeBlock ab).magicP = s.magicP := rfl
@[simp] theorem State.writeBlock_magicQ : (s.writeBlock ab).magicQ = s.magicQ := rfl
@[simp] theorem State.writeBlock_sched : (s.writeBlock ab).sched = s.sched := rfl
@[simp] theorem State.writeBlock_dataL : (s.writeBlock ab).dataL = zext64 ab.1 := rfl
@[simp] theorem State.writeBlock_dataR : (s.writeBlock ab).dataR = zext64 ab.2 := rfl
@[simp] theorem State.writeBlock_keyRam : (s.writeBlock ab).keyRam = s.keyRam := rfl
@[simp] theorem State.writeBlock_sRam : (s.writeBlock ab).sRam = s.sRam := rfl
@[simp] theorem State.writeBlock_msgRam : (s.writeBlock ab).msgRam = s.msgRam := rfl
@[simp] theorem State.writeBlock_curCmd : (s.writeBlock ab).curCmd = s.curCmd := rfl
@[simp] theorem State.writeBlock_snap : (s.writeBlock ab).snap = s.snap := rfl
@[simp] theorem State.writeBlock_turns : (s.writeBlock ab).turns = s.turns := rfl
@[simp] theorem State.writeBlock_later : (s.writeBlock ab).later = s.later := rfl
@[simp] theorem State.writeBlock_readData : (s.writeBlock ab).readData = s.readData := rfl
@[simp] theorem State.writeBlock_draws : (s.writeBlock ab).draws = s.draws := rfl

end writeBlockLaws

section writeScheduleLaws

variable (w r : Nat) (ws : List Nat) (st : SchedState) (s : State)

@[simp] theorem State.writeSchedule_params : (s.writeSchedule w r ws st).params = s.params := by
  simp only [State.writeSchedule, State.writeSched_params, State.writeMagic_params, State.writeSub_params]
@[simp] theorem State.writeSchedule_ie : (s.writeSchedule w r ws st).ie = s.ie := by
  simp only [State.writeSchedule, State.writeSched_ie, State.writeMagic_ie, State.writeSub_ie]
@[simp] theorem State.writeSchedule_cfg : (s.writeSchedule w r ws st).cfg = s.cfg := by
  simp only [State.writeSchedule, State.writeSched_cfg, State.writeMagic_cfg, State.writeSub_cfg]
@[simp] theorem State.writeSchedule_status : (s.writeSchedule w r ws st).status = s.status := by
  simp only [State.writeSchedule, State.writeSched_status, State.writeMagic_status, State.writeSub_status]
@[simp] theorem State.writeSchedule_magicP : (s.writeSchedule w r ws st).magicP = zext64 (Sys2Proof.Machine.magicP w) := by
  simp only [State.writeSchedule, State.writeSched_magicP, State.writeMagic_magicP]
@[simp] theorem State.writeSchedule_magicQ : (s.writeSchedule w r ws st).magicQ = zext64 (Sys2Proof.Machine.magicQ w) := by
  simp only [State.writeSchedule, State.writeSched_magicQ, State.writeMagic_magicQ]
@[simp] theorem State.writeSchedule_sched : (s.writeSchedule w r ws st).sched = { state := st, mvalid := true, mw := BitVec.ofNat 7 w, sw := BitVec.ofNat 7 w, sr := BitVec.ofNat 8 r } := by
  simp only [State.writeSchedule, State.writeSched_sched, State.writeMagic_sched, State.writeSub_sched]
@[simp] theorem State.writeSchedule_dataL : (s.writeSchedule w r ws st).dataL = s.dataL := by
  simp only [State.writeSchedule, State.writeSched_dataL, State.writeMagic_dataL, State.writeSub_dataL]
@[simp] theorem State.writeSchedule_dataR : (s.writeSchedule w r ws st).dataR = s.dataR := by
  simp only [State.writeSchedule, State.writeSched_dataR, State.writeMagic_dataR, State.writeSub_dataR]
@[simp] theorem State.writeSchedule_keyRam : (s.writeSchedule w r ws st).keyRam = s.keyRam := by
  simp only [State.writeSchedule, State.writeSched_keyRam, State.writeMagic_keyRam, State.writeSub_keyRam]
@[simp] theorem State.writeSchedule_sRam : (s.writeSchedule w r ws st).sRam = s.sRam.writeFrom 0 (ws.map zext64) := by
  simp only [State.writeSchedule, State.writeSched_sRam, State.writeMagic_sRam, State.writeSub_sRam]
@[simp] theorem State.writeSchedule_msgRam : (s.writeSchedule w r ws st).msgRam = s.msgRam := by
  simp only [State.writeSchedule, State.writeSched_msgRam, State.writeMagic_msgRam, State.writeSub_msgRam]
@[simp] theorem State.writeSchedule_curCmd : (s.writeSchedule w r ws st).curCmd = s.curCmd := by
  simp only [State.writeSchedule, State.writeSched_curCmd, State.writeMagic_curCmd, State.writeSub_curCmd]
@[simp] theorem State.writeSchedule_snap : (s.writeSchedule w r ws st).snap = s.snap := by
  simp only [State.writeSchedule, State.writeSched_snap, State.writeMagic_snap, State.writeSub_snap]
@[simp] theorem State.writeSchedule_turns : (s.writeSchedule w r ws st).turns = s.turns := by
  simp only [State.writeSchedule, State.writeSched_turns, State.writeMagic_turns, State.writeSub_turns]
@[simp] theorem State.writeSchedule_later : (s.writeSchedule w r ws st).later = s.later := by
  simp only [State.writeSchedule, State.writeSched_later, State.writeMagic_later, State.writeSub_later]
@[simp] theorem State.writeSchedule_readData : (s.writeSchedule w r ws st).readData = s.readData := by
  simp only [State.writeSchedule, State.writeSched_readData, State.writeMagic_readData, State.writeSub_readData]
@[simp] theorem State.writeSchedule_draws : (s.writeSchedule w r ws st).draws = s.draws := by
  simp only [State.writeSchedule, State.writeSched_draws, State.writeMagic_draws, State.writeSub_draws]

end writeScheduleLaws

section writeMessageResultLaws

variable (out : List Nat) (s : State)

@[simp] theorem State.writeMessageResult_params : (s.writeMessageResult out).params = s.params := by
  simp only [State.writeMessageResult, State.writeSchedule_params, State.writeMsg_params]
@[simp] theorem State.writeMessageResult_ie : (s.writeMessageResult out).ie = s.ie := by
  simp only [State.writeMessageResult, State.writeSchedule_ie, State.writeMsg_ie]
@[simp] theorem State.writeMessageResult_cfg : (s.writeMessageResult out).cfg = s.cfg := by
  simp only [State.writeMessageResult, State.writeSchedule_cfg, State.writeMsg_cfg]
@[simp] theorem State.writeMessageResult_status : (s.writeMessageResult out).status = s.status := by
  simp only [State.writeMessageResult, State.writeSchedule_status, State.writeMsg_status]
@[simp] theorem State.writeMessageResult_magicP : (s.writeMessageResult out).magicP = zext64 (Sys2Proof.Machine.magicP s.snapW) := by
  simp only [State.writeMessageResult, State.writeSchedule_magicP]
@[simp] theorem State.writeMessageResult_magicQ : (s.writeMessageResult out).magicQ = zext64 (Sys2Proof.Machine.magicQ s.snapW) := by
  simp only [State.writeMessageResult, State.writeSchedule_magicQ]
@[simp] theorem State.writeMessageResult_sched : (s.writeMessageResult out).sched = { state := .ready, mvalid := true, mw := BitVec.ofNat 7 s.snapW, sw := BitVec.ofNat 7 s.snapW, sr := BitVec.ofNat 8 s.snapR } := by
  simp only [State.writeMessageResult, State.writeSchedule_sched]
@[simp] theorem State.writeMessageResult_dataL : (s.writeMessageResult out).dataL = s.dataL := by
  simp only [State.writeMessageResult, State.writeSchedule_dataL, State.writeMsg_dataL]
@[simp] theorem State.writeMessageResult_dataR : (s.writeMessageResult out).dataR = s.dataR := by
  simp only [State.writeMessageResult, State.writeSchedule_dataR, State.writeMsg_dataR]
@[simp] theorem State.writeMessageResult_keyRam : (s.writeMessageResult out).keyRam = s.keyRam := by
  simp only [State.writeMessageResult, State.writeSchedule_keyRam, State.writeMsg_keyRam]
@[simp] theorem State.writeMessageResult_sRam : (s.writeMessageResult out).sRam = s.sRam.writeFrom 0 (s.builtSub.map zext64) := by
  simp only [State.writeMessageResult, State.writeSchedule_sRam, State.writeMsg_sRam]
@[simp] theorem State.writeMessageResult_msgRam : (s.writeMessageResult out).msgRam = s.msgRam.writeFrom 0 (out.map zext64) := by
  simp only [State.writeMessageResult, State.writeSchedule_msgRam, State.writeMsg_msgRam]
@[simp] theorem State.writeMessageResult_curCmd : (s.writeMessageResult out).curCmd = s.curCmd := by
  simp only [State.writeMessageResult, State.writeSchedule_curCmd, State.writeMsg_curCmd]
@[simp] theorem State.writeMessageResult_snap : (s.writeMessageResult out).snap = s.snap := by
  simp only [State.writeMessageResult, State.writeSchedule_snap, State.writeMsg_snap]
@[simp] theorem State.writeMessageResult_turns : (s.writeMessageResult out).turns = s.turns := by
  simp only [State.writeMessageResult, State.writeSchedule_turns, State.writeMsg_turns]
@[simp] theorem State.writeMessageResult_later : (s.writeMessageResult out).later = s.later := by
  simp only [State.writeMessageResult, State.writeSchedule_later, State.writeMsg_later]
@[simp] theorem State.writeMessageResult_readData : (s.writeMessageResult out).readData = s.readData := by
  simp only [State.writeMessageResult, State.writeSchedule_readData, State.writeMsg_readData]
@[simp] theorem State.writeMessageResult_draws : (s.writeMessageResult out).draws = s.draws := by
  simp only [State.writeMessageResult, State.writeSchedule_draws, State.writeMsg_draws]

end writeMessageResultLaws

section completeLaws

variable (e : ErrCode) (s : State)

@[simp] theorem State.complete_params : (s.complete e).params = s.params := rfl
@[simp] theorem State.complete_ie : (s.complete e).ie = s.ie := rfl
@[simp] theorem State.complete_cfg : (s.complete e).cfg = s.cfg := rfl
@[simp] theorem State.complete_status : (s.complete e).status = s.status.finish e := rfl
@[simp] theorem State.complete_magicP : (s.complete e).magicP = s.magicP := rfl
@[simp] theorem State.complete_magicQ : (s.complete e).magicQ = s.magicQ := rfl
@[simp] theorem State.complete_sched : (s.complete e).sched = s.sched := rfl
@[simp] theorem State.complete_dataL : (s.complete e).dataL = s.dataL := rfl
@[simp] theorem State.complete_dataR : (s.complete e).dataR = s.dataR := rfl
@[simp] theorem State.complete_keyRam : (s.complete e).keyRam = s.keyRam := rfl
@[simp] theorem State.complete_sRam : (s.complete e).sRam = s.sRam := rfl
@[simp] theorem State.complete_msgRam : (s.complete e).msgRam = s.msgRam := rfl
@[simp] theorem State.complete_curCmd : (s.complete e).curCmd = s.curCmd := rfl
@[simp] theorem State.complete_snap : (s.complete e).snap = s.snap := rfl
@[simp] theorem State.complete_turns : (s.complete e).turns = s.turns := rfl
@[simp] theorem State.complete_later : (s.complete e).later = s.later := rfl
@[simp] theorem State.complete_readData : (s.complete e).readData = s.readData := rfl
@[simp] theorem State.complete_draws : (s.complete e).draws = s.draws := rfl

end completeLaws

section startCommandLaws

variable (v : Cell) (s : State)

@[simp] theorem State.startCommand_params : (s.startCommand v).params = s.params := rfl
@[simp] theorem State.startCommand_ie : (s.startCommand v).ie = s.ie := rfl
@[simp] theorem State.startCommand_cfg : (s.startCommand v).cfg = s.cfg := rfl
@[simp] theorem State.startCommand_status : (s.startCommand v).status = s.status.start v := rfl
@[simp] theorem State.startCommand_magicP : (s.startCommand v).magicP = s.magicP := rfl
@[simp] theorem State.startCommand_magicQ : (s.startCommand v).magicQ = s.magicQ := rfl
@[simp] theorem State.startCommand_sched : (s.startCommand v).sched = s.sched := rfl
@[simp] theorem State.startCommand_dataL : (s.startCommand v).dataL = s.dataL := rfl
@[simp] theorem State.startCommand_dataR : (s.startCommand v).dataR = s.dataR := rfl
@[simp] theorem State.startCommand_keyRam : (s.startCommand v).keyRam = s.keyRam := rfl
@[simp] theorem State.startCommand_sRam : (s.startCommand v).sRam = s.sRam := rfl
@[simp] theorem State.startCommand_msgRam : (s.startCommand v).msgRam = s.msgRam := rfl
@[simp] theorem State.startCommand_curCmd : (s.startCommand v).curCmd = v := rfl
@[simp] theorem State.startCommand_snap : (s.startCommand v).snap = s.cfg := rfl
@[simp] theorem State.startCommand_turns : (s.startCommand v).turns = s.turns := rfl
@[simp] theorem State.startCommand_later : (s.startCommand v).later = s.later := rfl
@[simp] theorem State.startCommand_readData : (s.startCommand v).readData = s.readData := rfl
@[simp] theorem State.startCommand_draws : (s.startCommand v).draws = s.draws := rfl

end startCommandLaws

section dropWriteLaws

variable (s : State)

@[simp] theorem State.dropWrite_params : (s.dropWrite).params = s.params := rfl
@[simp] theorem State.dropWrite_ie : (s.dropWrite).ie = s.ie := rfl
@[simp] theorem State.dropWrite_cfg : (s.dropWrite).cfg = s.cfg := rfl
@[simp] theorem State.dropWrite_status : (s.dropWrite).status = { s.status with wovr := true } := rfl
@[simp] theorem State.dropWrite_magicP : (s.dropWrite).magicP = s.magicP := rfl
@[simp] theorem State.dropWrite_magicQ : (s.dropWrite).magicQ = s.magicQ := rfl
@[simp] theorem State.dropWrite_sched : (s.dropWrite).sched = s.sched := rfl
@[simp] theorem State.dropWrite_dataL : (s.dropWrite).dataL = s.dataL := rfl
@[simp] theorem State.dropWrite_dataR : (s.dropWrite).dataR = s.dataR := rfl
@[simp] theorem State.dropWrite_keyRam : (s.dropWrite).keyRam = s.keyRam := rfl
@[simp] theorem State.dropWrite_sRam : (s.dropWrite).sRam = s.sRam := rfl
@[simp] theorem State.dropWrite_msgRam : (s.dropWrite).msgRam = s.msgRam := rfl
@[simp] theorem State.dropWrite_curCmd : (s.dropWrite).curCmd = s.curCmd := rfl
@[simp] theorem State.dropWrite_snap : (s.dropWrite).snap = s.snap := rfl
@[simp] theorem State.dropWrite_turns : (s.dropWrite).turns = s.turns := rfl
@[simp] theorem State.dropWrite_later : (s.dropWrite).later = s.later := rfl
@[simp] theorem State.dropWrite_readData : (s.dropWrite).readData = s.readData := rfl
@[simp] theorem State.dropWrite_draws : (s.dropWrite).draws = s.draws := rfl

end dropWriteLaws

section nextBatchLaws

variable (s : State)

@[simp] theorem State.nextBatch_params : (s.nextBatch).params = s.params := rfl
@[simp] theorem State.nextBatch_ie : (s.nextBatch).ie = s.ie := rfl
@[simp] theorem State.nextBatch_cfg : (s.nextBatch).cfg = s.cfg := rfl
@[simp] theorem State.nextBatch_status : (s.nextBatch).status = s.status := rfl
@[simp] theorem State.nextBatch_magicP : (s.nextBatch).magicP = s.magicP := rfl
@[simp] theorem State.nextBatch_magicQ : (s.nextBatch).magicQ = s.magicQ := rfl
@[simp] theorem State.nextBatch_sched : (s.nextBatch).sched = s.sched := rfl
@[simp] theorem State.nextBatch_dataL : (s.nextBatch).dataL = s.dataL := rfl
@[simp] theorem State.nextBatch_dataR : (s.nextBatch).dataR = s.dataR := rfl
@[simp] theorem State.nextBatch_keyRam : (s.nextBatch).keyRam = s.keyRam := rfl
@[simp] theorem State.nextBatch_sRam : (s.nextBatch).sRam = s.sRam := rfl
@[simp] theorem State.nextBatch_msgRam : (s.nextBatch).msgRam = s.msgRam := rfl
@[simp] theorem State.nextBatch_curCmd : (s.nextBatch).curCmd = s.curCmd := rfl
@[simp] theorem State.nextBatch_snap : (s.nextBatch).snap = s.snap := rfl
@[simp] theorem State.nextBatch_turns : (s.nextBatch).turns = s.later.batch := rfl
@[simp] theorem State.nextBatch_later : (s.nextBatch).later = s.later.rest := rfl
@[simp] theorem State.nextBatch_readData : (s.nextBatch).readData = s.readData := rfl
@[simp] theorem State.nextBatch_draws : (s.nextBatch).draws = s.draws := rfl

end nextBatchLaws

section resetEventLaws

variable (s : State)

@[simp] theorem State.resetEvent_params : (s.resetEvent).params = s.params := rfl
@[simp] theorem State.resetEvent_ie : (s.resetEvent).ie = false := rfl
@[simp] theorem State.resetEvent_cfg : (s.resetEvent).cfg = 0#64 := rfl
@[simp] theorem State.resetEvent_status : (s.resetEvent).status = Status.atReset := rfl
@[simp] theorem State.resetEvent_magicP : (s.resetEvent).magicP = 0#64 := rfl
@[simp] theorem State.resetEvent_magicQ : (s.resetEvent).magicQ = 0#64 := rfl
@[simp] theorem State.resetEvent_sched : (s.resetEvent).sched = Sched.atReset := rfl
@[simp] theorem State.resetEvent_dataL : (s.resetEvent).dataL = 0#64 := rfl
@[simp] theorem State.resetEvent_dataR : (s.resetEvent).dataR = 0#64 := rfl
@[simp] theorem State.resetEvent_keyRam : (s.resetEvent).keyRam = s.keyRam := rfl
@[simp] theorem State.resetEvent_sRam : (s.resetEvent).sRam = s.sRam.lose .sub s.draws s.lostSub := rfl
@[simp] theorem State.resetEvent_msgRam : (s.resetEvent).msgRam = s.msgRam.lose .msg s.draws s.lostMsg := rfl
@[simp] theorem State.resetEvent_curCmd : (s.resetEvent).curCmd = Config.hiddenCurCmd s.draws := rfl
@[simp] theorem State.resetEvent_snap : (s.resetEvent).snap = Config.hiddenSnap s.draws := rfl
@[simp] theorem State.resetEvent_turns : (s.resetEvent).turns = s.turns := rfl
@[simp] theorem State.resetEvent_later : (s.resetEvent).later = s.later := rfl
@[simp] theorem State.resetEvent_readData : (s.resetEvent).readData = s.readData := rfl
@[simp] theorem State.resetEvent_draws : (s.resetEvent).draws = s.draws + 1 := rfl

end resetEventLaws

section StatusfinishLaws

variable (e : ErrCode) (st : Status)

@[simp] theorem Status.finish_busy : (st.finish e).busy = false := rfl
@[simp] theorem Status.finish_done : (st.finish e).done = true := rfl
@[simp] theorem Status.finish_wovr : (st.finish e).wovr = st.wovr := rfl
@[simp] theorem Status.finish_err : (st.finish e).err = e := rfl
@[simp] theorem Status.finish_lastop : (st.finish e).lastop = st.lastop := rfl

end StatusfinishLaws

section StatusstartLaws

variable (v : Cell) (st : Status)

@[simp] theorem Status.start_busy : (st.start v).busy = true := rfl
@[simp] theorem Status.start_done : (st.start v).done = false := rfl
@[simp] theorem Status.start_wovr : (st.start v).wovr = st.wovr := rfl
@[simp] theorem Status.start_err : (st.start v).err = .ok := rfl
@[simp] theorem Status.start_lastop : (st.start v).lastop = v.extractLsb' 0 8 := rfl

end StatusstartLaws

section StatushostWriteLaws

variable (v : Cell) (st : Status)

@[simp] theorem Status.hostWrite_busy : (st.hostWrite v).busy = st.busy := rfl
@[simp] theorem Status.hostWrite_done : (st.hostWrite v).done = (st.done && !v.getLsbD 1) := rfl
@[simp] theorem Status.hostWrite_wovr : (st.hostWrite v).wovr = (st.wovr && !v.getLsbD 2) := rfl
@[simp] theorem Status.hostWrite_err : (st.hostWrite v).err = st.err := rfl
@[simp] theorem Status.hostWrite_lastop : (st.hostWrite v).lastop = st.lastop := rfl

end StatushostWriteLaws

section operandLaws

variable {s t : State}

theorem State.snapW_congr (h : t.snap = s.snap) : t.snapW = s.snapW := by simp only [State.snapW, h]
theorem State.snapR_congr (h : t.snap = s.snap) : t.snapR = s.snapR := by simp only [State.snapR, h]
theorem State.snapC_congr (h : t.snap = s.snap) : t.snapC = s.snapC := by simp only [State.snapC, h]
theorem State.snapM_congr (h : t.snap = s.snap) : t.snapM = s.snapM := by simp only [State.snapM, h]
theorem State.schedW_congr (h : t.sched = s.sched) : t.schedW = s.schedW := by simp only [State.schedW, h]
theorem State.schedR_congr (h : t.sched = s.sched) : t.schedR = s.schedR := by simp only [State.schedR, h]
theorem State.keyCell_congr (h : t.keyRam = s.keyRam) (k : Nat) : t.keyCell k = s.keyCell k := by simp only [State.keyCell, h]
theorem State.subCell_congr (h : t.sRam = s.sRam) (k : Nat) : t.subCell k = s.subCell k := by simp only [State.subCell, h]
theorem State.msgCell_congr (h : t.msgRam = s.msgRam) (k : Nat) : t.msgCell k = s.msgCell k := by simp only [State.msgCell, h]

end operandLaws

end Sys2Proof.Machine
end

