-- ==== Sys2Proof/Laws/Ops.lean ====
section
/-! SUPPORT. What each shared operation can do, said once: operands, the writes of a command, its completion, a
host access, a turn. -/

namespace Sys2Proof.Machine

open Sys2Proof

@[simp] theorem State.keyWords_length (s : State) (w c : Nat) : (s.keyWords w c).length = c := by
  simp [State.keyWords]

@[simp] theorem State.subWords_length (s : State) (w t : Nat) : (s.subWords w t).length = t := by
  simp [State.subWords]

@[simp] theorem State.msgWords_length (s : State) (w m : Nat) : (s.msgWords w m).length = m := by
  simp [State.msgWords]

theorem State.keyWords_words (s : State) (w c : Nat) : ∀ y ∈ s.keyWords w c, y < 2 ^ w := by
  simp only [State.keyWords, List.mem_map]
  rintro y ⟨j, -, rfl⟩
  exact wordOf_lt w _

theorem State.subWords_words (s : State) (w t : Nat) : ∀ y ∈ s.subWords w t, y < 2 ^ w := by
  simp only [State.subWords, List.mem_map]
  rintro y ⟨j, -, rfl⟩
  exact wordOf_lt w _

theorem State.msgWords_words (s : State) (w m : Nat) : ∀ y ∈ s.msgWords w m, y < 2 ^ w := by
  simp only [State.msgWords, List.mem_map]
  rintro y ⟨j, -, rfl⟩
  exact wordOf_lt w _

theorem State.snapW_lt (s : State) : s.snapW < 2 ^ 7 := (cfgWidth s.snap).isLt

theorem State.snapR_lt (s : State) : s.snapR < 2 ^ 8 := (cfgRounds s.snap).isLt

/-- The S cells after a command's write of the words `ws`. -/
theorem State.writeSub_subCell (ws : List Nat) (s : State) (k : Nat) :
    (s.writeSub ws).subCell k = if k < ws.length then zext64 (ws.getD k 0) else s.subCell k :=
  Memory.cell_writeWords ..

/-- The MSG cells after a command's write of the words `ws`. -/
theorem State.writeMsg_msgCell (ws : List Nat) (s : State) (k : Nat) :
    (s.writeMsg ws).msgCell k = if k < ws.length then zext64 (ws.getD k 0) else s.msgCell k :=
  Memory.cell_writeWords ..

/-! The RAM cells after each update. -/

@[simp] theorem State.writeMagic_keyCell (w : Nat) (s : State) (k : Nat) :
    (s.writeMagic w).keyCell k = s.keyCell k := rfl

@[simp] theorem State.writeMagic_subCell (w : Nat) (s : State) (k : Nat) :
    (s.writeMagic w).subCell k = s.subCell k := rfl

@[simp] theorem State.writeMagic_msgCell (w : Nat) (s : State) (k : Nat) :
    (s.writeMagic w).msgCell k = s.msgCell k := rfl

@[simp] theorem State.writeSched_keyCell (w r : Nat) (st : SchedState) (s : State) (k : Nat) :
    (s.writeSched w r st).keyCell k = s.keyCell k := rfl

@[simp] theorem State.writeSched_subCell (w r : Nat) (st : SchedState) (s : State) (k : Nat) :
    (s.writeSched w r st).subCell k = s.subCell k := rfl

@[simp] theorem State.writeSched_msgCell (w r : Nat) (st : SchedState) (s : State) (k : Nat) :
    (s.writeSched w r st).msgCell k = s.msgCell k := rfl

@[simp] theorem State.writeSchedState_keyCell (st : SchedState) (s : State) (k : Nat) :
    (s.writeSchedState st).keyCell k = s.keyCell k := rfl

@[simp] theorem State.writeSchedState_subCell (st : SchedState) (s : State) (k : Nat) :
    (s.writeSchedState st).subCell k = s.subCell k := rfl

@[simp] theorem State.writeSchedState_msgCell (st : SchedState) (s : State) (k : Nat) :
    (s.writeSchedState st).msgCell k = s.msgCell k := rfl

@[simp] theorem State.writeBlock_keyCell (ab : Nat × Nat) (s : State) (k : Nat) :
    (s.writeBlock ab).keyCell k = s.keyCell k := rfl

@[simp] theorem State.writeBlock_subCell (ab : Nat × Nat) (s : State) (k : Nat) :
    (s.writeBlock ab).subCell k = s.subCell k := rfl

@[simp] theorem State.writeBlock_msgCell (ab : Nat × Nat) (s : State) (k : Nat) :
    (s.writeBlock ab).msgCell k = s.msgCell k := rfl

@[simp] theorem State.complete_keyCell (e : ErrCode) (s : State) (k : Nat) :
    (s.complete e).keyCell k = s.keyCell k := rfl

@[simp] theorem State.complete_subCell (e : ErrCode) (s : State) (k : Nat) :
    (s.complete e).subCell k = s.subCell k := rfl

@[simp] theorem State.complete_msgCell (e : ErrCode) (s : State) (k : Nat) :
    (s.complete e).msgCell k = s.msgCell k := rfl

@[simp] theorem State.writeSub_keyCell (ws : List Nat) (s : State) (k : Nat) :
    (s.writeSub ws).keyCell k = s.keyCell k := rfl

@[simp] theorem State.writeSub_msgCell (ws : List Nat) (s : State) (k : Nat) :
    (s.writeSub ws).msgCell k = s.msgCell k := rfl

@[simp] theorem State.writeMsg_keyCell (ws : List Nat) (s : State) (k : Nat) :
    (s.writeMsg ws).keyCell k = s.keyCell k := rfl

@[simp] theorem State.writeMsg_subCell (ws : List Nat) (s : State) (k : Nat) :
    (s.writeMsg ws).subCell k = s.subCell k := rfl

theorem State.writeSchedule_subCell (w r : Nat) (ws : List Nat) (st : SchedState) (s : State) (k : Nat) :
    (s.writeSchedule w r ws st).subCell k = if k < ws.length then zext64 (ws.getD k 0) else s.subCell k := by
  simp only [State.writeSchedule, State.writeSched_subCell, State.writeMagic_subCell, State.writeSub_subCell]

@[simp] theorem State.writeSchedule_msgCell (w r : Nat) (ws : List Nat) (st : SchedState) (s : State) (k : Nat) :
    (s.writeSchedule w r ws st).msgCell k = s.msgCell k := by
  simp only [State.writeSchedule, State.writeSched_msgCell, State.writeMagic_msgCell, State.writeSub_msgCell]

@[simp] theorem State.writeSchedule_keyCell (w r : Nat) (ws : List Nat) (st : SchedState) (s : State) (k : Nat) :
    (s.writeSchedule w r ws st).keyCell k = s.keyCell k := by
  simp only [State.writeSchedule, State.writeSched_keyCell, State.writeMagic_keyCell, State.writeSub_keyCell]

theorem State.writeMessageResult_subCell (out : List Nat) (s : State) (k : Nat) :
    (s.writeMessageResult out).subCell k =
      if k < s.builtSub.length then zext64 (s.builtSub.getD k 0) else s.subCell k := by
  simp only [State.writeMessageResult, State.writeSchedule_subCell, State.writeMsg_subCell]

theorem State.writeMessageResult_msgCell (out : List Nat) (s : State) (k : Nat) :
    (s.writeMessageResult out).msgCell k = if k < out.length then zext64 (out.getD k 0) else s.msgCell k := by
  simp only [State.writeMessageResult, State.writeSchedule_msgCell, State.writeMsg_msgCell]

/-- A command ends in one of two ways: the first error that applies and only STATUS changed, or no error and its
writes made. -/
theorem finishWith_cases {checks : List (Bool × ErrCode)} {written s t : State}
    (h : finishWith checks written s = .next t) :
    (∃ e, firstError checks = some e ∧ t = s.complete e) ∨
      (firstError checks = none ∧ t = written.complete .ok) := by
  unfold finishWith at h
  split at h
  · rename_i e he; exact .inl ⟨e, he, by simpa using h.symm⟩
  · rename_i he; exact .inr ⟨he, by simpa using h.symm⟩

theorem finishWith_error {checks : List (Bool × ErrCode)} {e : ErrCode} (written s : State)
    (h : firstError checks = some e) : finishWith checks written s = .next (s.complete e) := by
  simp [finishWith, h]

theorem finishWith_none {checks : List (Bool × ErrCode)} (written s : State)
    (h : firstError checks = none) : finishWith checks written s = .next (written.complete .ok) := by
  simp [finishWith, h]

theorem firstError_cons (b : Bool) (e : ErrCode) (rest : List (Bool × ErrCode)) :
    firstError ((b, e) :: rest) = if b then some e else firstError rest := rfl

theorem firstError_nil : firstError [] = none := rfl

/-- What a host read changes: only what it returned and, where that is unspecified, the count of draws. -/
theorem State.hostRead_cases (a : Addr) (s : State) :
    (s.status.busy = true ∧ hiddenWhileBusy (targetOf s.params a) = true ∧
      s.hostRead a = { s with readData := some (Config.busyRead s.draws), draws := s.draws + 1 }) ∨
    ((s.status.busy && hiddenWhileBusy (targetOf s.params a)) = false ∧
      s.hostRead a = { s with readData := some (s.readTarget (targetOf s.params a)) }) := by
  unfold State.hostRead
  by_cases h : (s.status.busy && hiddenWhileBusy (targetOf s.params a)) = true
  · left; simp_all
  · right; simp_all

/-- What a host write does: it is dropped, or it takes effect at its target. -/
theorem State.hostWrite_cases (a : Addr) (v : Cell) (s : State) :
    (s.status.busy = true ∧ droppedWhileBusy (targetOf s.params a) = true ∧ s.hostWrite a v = s.dropWrite) ∨
    ((s.status.busy && droppedWhileBusy (targetOf s.params a)) = false ∧
      s.hostWrite a v = s.writeTarget v (targetOf s.params a)) := by
  unfold State.hostWrite
  by_cases h : (s.status.busy && droppedWhileBusy (targetOf s.params a)) = true
  · left; simp_all
  · right; simp_all

/-- A step is the engine's turn when no turn is listed, with the next batch after it, else the first listed turn. -/
theorem step_of_turns_nil {s : State} (h : s.turns = []) :
    step s = engineTurn s.nextBatch := by
  simp [step, machineStep, h]

theorem step_of_turns_cons {s : State} {t : Turn} {rest : List Turn} (h : s.turns = t :: rest) :
    step s = takeTurn t { s with turns := rest } := by
  simp [step, machineStep, h]

end Sys2Proof.Machine
end

