-- ==== Sys2Proof/Laws/Exec.lean ====
section
/-! SUPPORT. What a command, and a step, can do, said once: every command is a list of checks and the writes made
when none applies; every step is one of the four kinds of turn. -/

namespace Sys2Proof.Machine

open Sys2Proof

/-- The checks of a command, in order (60_exceptions.md R184). -/
def checksOf (i : Instr) (s : State) : List (Bool × ErrCode) :=
  match i with
  | .nop => []
  | .genMagic => [(s.badWidth, .badWidth)]
  | .initSubkeys => [(s.badWidth, .badWidth), (s.badRounds, .badRounds)]
  | .mixKey => [(s.schedNot .init, .noSchedule), (s.emptyKey, .invalidKey), (s.longKey, .keyTooLong)]
  | .buildSchedule =>
    [(s.badWidth, .badWidth), (s.badRounds, .badRounds), (s.emptyKey, .invalidKey), (s.longKey, .keyTooLong)]
  | .encBlock => [(s.schedNot .ready, .noSchedule)]
  | .decBlock => [(s.schedNot .ready, .noSchedule)]
  | .encMsg => s.messageChecks
  | .decMsg => s.messageChecks

/-- The state with a command's writes made, before its completion (30_encoding.md R83). -/
def writesOf (i : Instr) (s : State) : State :=
  match i with
  | .nop => s
  | .genMagic => s.writeMagic s.snapW
  | .initSubkeys => s.writeSchedule s.snapW s.snapR (initialFill s.snapW s.snapR) .init
  | .mixKey => (s.writeSub s.mixedSub).writeSchedState .ready
  | .buildSchedule => s.writeSchedule s.snapW s.snapR s.builtSub .ready
  | .encBlock => s.writeBlock (encBlockWords s.schedW s.schedR s.storedSub s.blockWords)
  | .decBlock => s.writeBlock (decBlockWords s.schedW s.schedR s.storedSub s.blockWords)
  | .encMsg =>
    s.writeMessageResult (encMsgWords s.snapW s.snapR s.builtSub (s.msgWords s.snapW s.snapM))
  | .decMsg =>
    s.writeMessageResult (decMsgWords s.snapW s.snapR s.builtSub (s.msgWords s.snapW s.snapM))

theorem exec_eq (i : Instr) (s : State) : exec i s = finishWith (checksOf i s) (writesOf i s) s := by
  cases i <;> simp only [exec, execNop, execGenMagic, execInitSubkeys, execMixKey, execBuildSchedule, execEncBlock,
    execDecBlock, execEncMsg, execDecMsg, checksOf, writesOf]

/-- The checks of a command read the parameters, the captured CFG and SCHED.STATE, nothing else. -/
theorem checksOf_congr (i : Instr) {s s' : State} (hp : s'.params = s.params) (hs : s'.snap = s.snap)
    (hd : s'.sched.state = s.sched.state) : checksOf i s' = checksOf i s := by
  have hw : s'.snapW = s.snapW := by unfold State.snapW; rw [hs]
  have hr : s'.snapR = s.snapR := by unfold State.snapR; rw [hs]
  have hc : s'.snapC = s.snapC := by unfold State.snapC; rw [hs]
  have hm : s'.snapM = s.snapM := by unfold State.snapM; rw [hs]
  have e1 : s'.badWidth = s.badWidth := by unfold State.badWidth; rw [hw, hp]
  have e2 : s'.badRounds = s.badRounds := by unfold State.badRounds; rw [hr, hp]
  have e3 : s'.emptyKey = s.emptyKey := by unfold State.emptyKey; rw [hc]
  have e4 : s'.longKey = s.longKey := by unfold State.longKey; rw [hc, hp]
  have e5 : s'.oddMessage = s.oddMessage := by unfold State.oddMessage; rw [hm]
  have e6 : s'.longMessage = s.longMessage := by unfold State.longMessage; rw [hm, hp]
  have e7 : ∀ want, s'.schedNot want = s.schedNot want := by intro want; unfold State.schedNot; rw [hd]
  cases i <;> simp only [checksOf, State.messageChecks, e1, e2, e3, e4, e5, e6, e7]

/-- What the writes of a command leave as it was. -/
def SameShell (s u : State) : Prop :=
  u.params = s.params ∧ u.ie = s.ie ∧ u.cfg = s.cfg ∧ u.status = s.status ∧ u.keyRam = s.keyRam ∧
  u.curCmd = s.curCmd ∧ u.snap = s.snap ∧ u.turns = s.turns ∧ u.later = s.later ∧ u.readData = s.readData ∧
  u.draws = s.draws

theorem writesOf_shell (i : Instr) (s : State) : SameShell s (writesOf i s) := by
  cases i <;> simp [SameShell, writesOf, State.writeSchedule, State.writeMessageResult]

/-- A completion of a command: an error and only STATUS changed, or no error and the command's writes made. -/
theorem exec_cases {i : Instr} {s t : State} (h : exec i s = .next t) :
    (∃ e, firstError (checksOf i s) = some e ∧ t = s.complete e) ∨
      (firstError (checksOf i s) = none ∧ t = (writesOf i s).complete .ok) :=
  finishWith_cases (exec_eq i s ▸ h)

/-- The completion of the command in flight: an illegal word, or a command. -/
theorem completion_cases {s t : State} (h : completion s = .next t) :
    ((∃ e, decode s.curCmd = .error e) ∧ t = s.complete .illegalCommand) ∨
      ∃ i, decode s.curCmd = .ok i ∧ exec i s = .next t := by
  unfold completion at h
  split at h
  · exact .inr ⟨_, by assumption, h⟩
  · refine .inl ⟨⟨_, by assumption⟩, ?_⟩
    simpa [execIllegal, finishWith, firstError] using h.symm

/-- Whatever completes, the result is `u.complete e` for a state `u` with the same shell, and `u` is the state
before when there is an error. -/
theorem completion_form {s t : State} (h : completion s = .next t) :
    ∃ (u : State) (e : ErrCode), t = u.complete e ∧ SameShell s u ∧ (e ≠ .ok → u = s) := by
  rcases completion_cases h with ⟨-, rfl⟩ | ⟨i, -, h⟩
  · exact ⟨s, _, rfl, ⟨rfl, rfl, rfl, rfl, rfl, rfl, rfl, rfl, rfl, rfl, rfl⟩, fun _ => rfl⟩
  · rcases exec_cases h with ⟨e, -, rfl⟩ | ⟨-, rfl⟩
    · exact ⟨s, e, rfl, ⟨rfl, rfl, rfl, rfl, rfl, rfl, rfl, rfl, rfl, rfl, rfl⟩, fun _ => rfl⟩
    · exact ⟨_, .ok, rfl, writesOf_shell i s, fun h => absurd rfl h⟩

theorem engineTurn_cases {s t : State} (h : engineTurn s = .next t) :
    (s.status.busy = true ∧ completion s = .next t) ∨ (s.status.busy = false ∧ t = s) := by
  unfold engineTurn at h
  split at h
  · exact .inl ⟨by assumption, h⟩
  · rename_i hb; exact .inr ⟨by simpa using hb, by simpa using h.symm⟩

/-- Whoever has the engine's turn: the step is `engineTurn` at the state with the turn taken. -/
theorem step_of_engine_turn {s u : State} (h : EngineHasTheTurn s u) : step s = engineTurn u := by
  rcases h with ⟨rest, h, rfl⟩ | ⟨h, rfl⟩
  · exact step_of_turns_cons h
  · exact step_of_turns_nil h

/-- Taking the engine's turn changes the turns to come, nothing else. -/
theorem EngineHasTheTurn.form {s u : State} (h : EngineHasTheTurn s u) :
    ∃ turns later, u = { s with turns := turns, later := later } := by
  rcases h with ⟨rest, -, rfl⟩ | ⟨-, rfl⟩ <;> exact ⟨_, _, rfl⟩

/-- Every step is the engine's turn, a host read, a host write or a reset. -/
theorem step_cases {s t : State} (h : step s = .next t) :
    (∃ turns later, EngineHasTheTurn s { s with turns := turns, later := later } ∧
      ((s.status.busy = true ∧ completion { s with turns := turns, later := later } = .next t) ∨
        (s.status.busy = false ∧ t = { s with turns := turns, later := later }))) ∨
    (∃ a rest, s.turns = .read a :: rest ∧ t = ({ s with turns := rest } : State).hostRead a) ∨
    (∃ a v rest, s.turns = .write a v :: rest ∧ t = ({ s with turns := rest } : State).hostWrite a v) ∨
    (∃ rest, s.turns = .reset :: rest ∧ t = ({ s with turns := rest } : State).resetEvent) := by
  cases ht : s.turns with
  | nil =>
    rw [step_of_turns_nil ht] at h
    exact .inl ⟨_, _, .inr ⟨ht, rfl⟩, engineTurn_cases h⟩
  | cons x rest =>
    rw [step_of_turns_cons ht] at h
    cases x with
    | engine => exact .inl ⟨rest, s.later, .inl ⟨rest, ht, rfl⟩, engineTurn_cases h⟩
    | read a => cases h; exact .inr (.inl ⟨a, rest, rfl, rfl⟩)
    | write a v => cases h; exact .inr (.inr (.inl ⟨a, v, rest, rfl, rfl⟩))
    | reset => cases h; exact .inr (.inr (.inr ⟨rest, rfl, rfl⟩))

/-- An illegal word (30_encoding.md R85) decodes to no command. -/
theorem decode_of_illegal {v : Cell} (h : v.extractLsb' 8 56 ≠ 0#56 ∨ 9 ≤ (v.extractLsb' 0 8).toNat) :
    ∃ e, decode v = .error e := by
  unfold decode
  by_cases h0 : commandReserved v = 0#56
  · have h9 : 9 ≤ (commandOpcode v).toNat := h.resolve_left fun hn => hn h0
    simp only [h0, if_true, commandOfOpcode]
    split <;> first | omega | exact ⟨_, rfl⟩
  · simp [h0]

theorem run_succ {s t : State} (n : Nat) (h : step s = .next t) :
    Sys2Proof.core.run (n + 1) s = Sys2Proof.core.run n t := by
  have h' : Sys2Proof.core.step s = .next t := h
  simp only [Host.Core.run, h']

end Sys2Proof.Machine
end

