-- ==== Sys2Proof/Laws/PerInstr.lean ====
section
/-! SUPPORT. What holds of every instruction, one lemma per constructor. -/

namespace Sys2Proof.Laws.CommandWord

/-- The command word of an instruction keeps its opcode in `[7:0]`, below 0x09, under a RES field of 0
(30_encoding.md R80, R82). -/
def Statement (i : Instr) : Prop :=
  commandReserved (encode i) = 0#56 ∧ commandOpcode (encode i) = opcodeOf i ∧ (opcodeOf i).toNat < 9

theorem nop : Statement .nop := by unfold Statement; decide
theorem genMagic : Statement .genMagic := by unfold Statement; decide
theorem initSubkeys : Statement .initSubkeys := by unfold Statement; decide
theorem mixKey : Statement .mixKey := by unfold Statement; decide
theorem buildSchedule : Statement .buildSchedule := by unfold Statement; decide
theorem encBlock : Statement .encBlock := by unfold Statement; decide
theorem decBlock : Statement .decBlock := by unfold Statement; decide
theorem encMsg : Statement .encMsg := by unfold Statement; decide
theorem decMsg : Statement .decMsg := by unfold Statement; decide

end Sys2Proof.Laws.CommandWord
end

