-- ==== Sys2Proof/Tests/Slice0.lean ====
section
/-! SUPPORT. The model's own tests, with results taken from the spec's vectors (95_test_vectors.md) and rules, and
a witness for the hypotheses of each obligation. -/

namespace Sys2Proof.Tests

open Sys2Proof Sys2Proof.Machine

/-! ### States the tests use -/

/-- A CFG value with the four fields (10_state.md R25). -/
def cfgOf (w r c m : Nat) : Cell := BitVec.ofNat 64 (m * 2 ^ 32 + c * 2 ^ 16 + r * 2 ^ 8 + w)

/-- The machine after reset with events to come and none after them, its hidden registers at known values. -/
def idleState (ts : List Turn) : State :=
  { State.reset with curCmd := 0#64, snap := 0#64, turns := ts, later := .again [] }

/-- The same with a command word `v` in flight under CFG `c`. -/
def busyState (v c : Cell) (ts : List Turn) : State :=
  { ({ idleState ts with cfg := c } : State).startCommand v with turns := ts }

/-- A captured CFG and a key, for a command given to `exec` directly. -/
def keyState (c : Cell) (key : Memory) : State :=
  { idleState [] with cfg := c, snap := c, keyRam := key }

/-- A stored schedule with its cells and a block. -/
def schedState (st : SchedState) (w r : Nat) (sub : Memory) (a b : Cell) : State :=
  { idleState [] with
    sched := { state := st, mvalid := true, mw := BitVec.ofNat 7 w, sw := BitVec.ofNat 7 w, sr := BitVec.ofNat 8 r }
    sRam := sub
    dataL := a
    dataR := b }

/-- The state a step or a command answers. -/
def after : Host.Outcome State Fault Refusal → State
  | .next s => s
  | .fault r => nomatch r
  | .refused _ => State.reset

/-- Four key cells of FFFF, a key of the spec's scenario (X1). -/
def ffffKey : Memory := [(0, 0xFFFF#64), (1, 0xFFFF#64), (2, 0xFFFF#64), (3, 0xFFFF#64)]

/-- Parameters smaller than the defaults, so that BAD_ROUNDS can occur (V-KS-7h). -/
def smallParams : Params := { wmax := 32, rmax := 12, kmax := 4, mmax := 8 }

/-! ### Well-formedness: each check refuses an ill-formed term -/

theorem test_wf_reserved_bit_refused : commandWordWellFormed 0x0000000000000105#64 = false := by decide
theorem test_wf_top_bit_refused : commandWordWellFormed 0x8000000000000000#64 = false := by decide
theorem test_wf_opcode_9_refused : commandWordWellFormed 0x0000000000000009#64 = false := by decide
theorem test_wf_opcode_8_accepted : commandWordWellFormed 0x0000000000000008#64 = true := by decide
theorem test_wf_wmax_refused :
    Params.wellFormed { Params.default with wmax := 0 } = false ∧
    Params.wellFormed { Params.default with wmax := 65 } = false := by decide
theorem test_wf_rmax_refused : Params.wellFormed { Params.default with rmax := 256 } = false := by decide
theorem test_wf_kmax_refused :
    Params.wellFormed { Params.default with kmax := 0 } = false ∧
    Params.wellFormed { Params.default with kmax := 8193 } = false := by decide
theorem test_wf_mmax_refused :
    Params.wellFormed { Params.default with mmax := 1023 } = false ∧
    Params.wellFormed { Params.default with mmax := 32770 } = false := by decide
theorem test_wf_params_accepted :
    Params.wellFormed { wmax := 1, rmax := 0, kmax := 1, mmax := 0 } = true ∧
    Params.wellFormed { wmax := 64, rmax := 255, kmax := 8192, mmax := 32768 } = true := by decide

/-! ### Decoding: RES `[63:8]`, then OPC `[7:0]`, bit by bit (R80, R82) -/

theorem test_decode_nop : decode (0#56 ++ 0b00000000#8) = .ok .nop := by decide
theorem test_decode_gen_magic : decode (0#56 ++ 0b00000001#8) = .ok .genMagic := by decide
theorem test_decode_init_subkeys : decode (0#56 ++ 0b00000010#8) = .ok .initSubkeys := by decide
theorem test_decode_mix_key : decode (0#56 ++ 0b00000011#8) = .ok .mixKey := by decide
theorem test_decode_build_schedule : decode (0#56 ++ 0b00000100#8) = .ok .buildSchedule := by decide
theorem test_decode_enc_block : decode (0#56 ++ 0b00000101#8) = .ok .encBlock := by decide
theorem test_decode_dec_block : decode (0#56 ++ 0b00000110#8) = .ok .decBlock := by decide
theorem test_decode_enc_msg : decode (0#56 ++ 0b00000111#8) = .ok .encMsg := by decide
theorem test_decode_dec_msg : decode (0#56 ++ 0b00001000#8) = .ok .decMsg := by decide
theorem test_decode_undefined_opcodes :
    ∀ o : BitVec 8, 9 ≤ o.toNat → decode (0#56 ++ o) = .error .undefinedOpcode := by decide +kernel
theorem test_decode_reserved_bits :
    decode 0x0000000000000105#64 = .error .reservedBits ∧ decode 0x8000000000000000#64 = .error .reservedBits ∧
    decode 0x0000000000000100#64 = .error .reservedBits := by decide
theorem test_decode_table_word :
    decodeTableWord 64 8 = some .decMsg ∧ decodeTableWord 64 9 = none ∧ decodeTableWord 64 0x105 = none := by decide

/-! ### Word arithmetic (V-ROT, V-ARI) -/

theorem test_rotations :
    rotlW 16 0x1234 4 = 0x2341 ∧ rotrW 16 0x1234 4 = 0x4123 ∧ rotlW 16 0x1234 16 = 0x1234 ∧
    rotlW 16 0x1234 20 = 0x2341 ∧ rotlW 16 0x8001 1 = 0x0003 ∧ rotrW 16 0x8001 1 = 0xC000 ∧ rotlW 1 1 5 = 1 ∧
    rotlW 24 0xABCDEF 30 = 0xF37BEA ∧ rotrW 24 0xABCDEF 30 = 0xBEAF37 ∧ rotlW 8 0x80 7 = 0x40 ∧
    rotrW 64 0x123456789ABCDEF0 68 = 0x0123456789ABCDEF := by decide +kernel
theorem test_add_sub_wrap :
    addW 16 0xFFFF 1 = 0 ∧ subW 16 0xFFFF 1 = 0xFFFE ∧ subW 16 0 1 = 0xFFFF ∧ addW 3 7 7 = 6 ∧ subW 3 7 7 = 0 := by
  decide

/-- R84: each operand from its own bits of the captured CFG. -/
theorem test_operands_of_captured_cfg :
    let s := keyState 0x0000FFFE00031F40#64 []
    s.snapW = 0x40 ∧ s.snapR = 0x1F ∧ s.snapC = 3 ∧ s.snapM = 0xFFFE := by decide

/-! ### The magic constants (R107) -/

/-- Rows 1 to 16 of the table of R107: `w`, `xp`, `P_w`, `xq`, `Q_w`. -/
def magicTable0 : List (Nat × Int × Nat × Int × Nat) := [
  (1, 1, 0x1, -1, 0x1),
  (2, 2, 0x3, -2, 0x1),
  (3, 5, 0x5, -4, 0x3),
  (4, 11, 0xB, -7, 0x9),
  (5, 22, 0x17, -13, 0x13),
  (6, 45, 0x2D, -25, 0x27),
  (7, 91, 0x5B, -49, 0x4F),
  (8, 183, 0xB7, -98, 0x9D),
  (9, 367, 0x16F, -196, 0x13B),
  (10, 735, 0x2DF, -392, 0x277),
  (11, 1471, 0x5BF, -783, 0x4F1),
  (12, 2942, 0xB7F, -1565, 0x9E3),
  (13, 5884, 0x16FD, -3130, 0x13C5),
  (14, 11768, 0x2DF9, -6259, 0x278D),
  (15, 23536, 0x5BF1, -12517, 0x4F1B),
  (16, 47073, 0xB7E1, -25033, 0x9E37)]

/-- Rows 17 to 32 of the table of R107: `w`, `xp`, `P_w`, `xq`, `Q_w`. -/
def magicTable1 : List (Nat × Int × Nat × Int × Nat) := [
  (17, 94146, 0x16FC3, -50066, 0x13C6D),
  (18, 188293, 0x2DF85, -100131, 0x278DD),
  (19, 376586, 0x5BF0B, -200261, 0x4F1BB),
  (20, 753173, 0xB7E15, -400521, 0x9E377),
  (21, 1506346, 0x16FC2B, -801041, 0x13C6EF),
  (22, 3012692, 0x2DF855, -1602082, 0x278DDD),
  (23, 6025384, 0x5BF0A9, -3204164, 0x4F1BBB),
  (24, 12050769, 0xB7E151, -6408327, 0x9E3779),
  (25, 24101538, 0x16FC2A3, -12816653, 0x13C6EF3),
  (26, 48203077, 0x2DF8545, -25633306, 0x278DDE5),
  (27, 96406155, 0x5BF0A8B, -51266611, 0x4F1BBCD),
  (28, 192812310, 0xB7E1517, -102533221, 0x9E3779B),
  (29, 385624620, 0x16FC2A2D, -205066441, 0x13C6EF37),
  (30, 771249240, 0x2DF85459, -410132882, 0x278DDE6D),
  (31, 1542498481, 0x5BF0A8B1, -820265764, 0x4F1BBCDB),
  (32, 3084996962, 0xB7E15163, -1640531527, 0x9E3779B9)]

/-- Rows 33 to 48 of the table of R107: `w`, `xp`, `P_w`, `xq`, `Q_w`. -/
def magicTable2 : List (Nat × Int × Nat × Int × Nat) := [
  (33, 6169993925, 0x16FC2A2C5, -3281063054, 0x13C6EF371),
  (34, 12339987850, 0x2DF85458B, -6562126107, 0x278DDE6E5),
  (35, 24679975700, 0x5BF0A8B15, -13124252213, 0x4F1BBCDCB),
  (36, 49359951400, 0xB7E151629, -26248504425, 0x9E3779B97),
  (37, 98719902801, 0x16FC2A2C51, -52497008849, 0x13C6EF372F),
  (38, 197439805602, 0x2DF85458A3, -104994017697, 0x278DDE6E5F),
  (39, 394879611205, 0x5BF0A8B145, -209988035393, 0x4F1BBCDCBF),
  (40, 789759222410, 0xB7E151628B, -419976070785, 0x9E3779B97F),
  (41, 1579518444821, 0x16FC2A2C515, -839952141570, 0x13C6EF372FD),
  (42, 3159036889643, 0x2DF85458A2B, -1679904283139, 0x278DDE6E5FD),
  (43, 6318073779287, 0x5BF0A8B1457, -3359808566278, 0x4F1BBCDCBF9),
  (44, 12636147558574, 0xB7E151628AF, -6719617132556, 0x9E3779B97F3),
  (45, 25272295117149, 0x16FC2A2C515D, -13439234265111, 0x13C6EF372FE9),
  (46, 50544590234299, 0x2DF85458A2BB, -26878468530222, 0x278DDE6E5FD1),
  (47, 101089180468598, 0x5BF0A8B14577, -53756937060443, 0x4F1BBCDCBFA5),
  (48, 202178360937197, 0xB7E151628AED, -107513874120886, 0x9E3779B97F49)]

/-- Rows 49 to 64 of the table of R107: `w`, `xp`, `P_w`, `xq`, `Q_w`. -/
def magicTable3 : List (Nat × Int × Nat × Int × Nat) := [
  (49, 404356721874394, 0x16FC2A2C515DB, -215027748241772, 0x13C6EF372FE93),
  (50, 808713443748788, 0x2DF85458A2BB5, -430055496483543, 0x278DDE6E5FD29),
  (51, 1617426887497577, 0x5BF0A8B145769, -860110992967085, 0x4F1BBCDCBFA53),
  (52, 3234853774995154, 0xB7E151628AED3, -1720221985934169, 0x9E3779B97F4A7),
  (53, 6469707549990309, 0x16FC2A2C515DA5, -3440443971868337, 0x13C6EF372FE94F),
  (54, 12939415099980618, 0x2DF85458A2BB4B, -6880887943736673, 0x278DDE6E5FD29F),
  (55, 25878830199961237, 0x5BF0A8B1457695, -13761775887473346, 0x4F1BBCDCBFA53D),
  (56, 51757660399922474, 0xB7E151628AED2B, -27523551774946692, 0x9E3779B97F4A7B),
  (57, 103515320799844948, 0x16FC2A2C515DA55, -55047103549893384, 0x13C6EF372FE94F7),
  (58, 207030641599689897, 0x2DF85458A2BB4A9, -110094207099786768, 0x278DDE6E5FD29EF),
  (59, 414061283199379795, 0x5BF0A8B14576953, -220188414199573536, 0x4F1BBCDCBFA53DF),
  (60, 828122566398759590, 0xB7E151628AED2A7, -440376828399147071, 0x9E3779B97F4A7C1),
  (61, 1656245132797519181, 0x16FC2A2C515DA54D, -880753656798294142, 0x13C6EF372FE94F81),
  (62, 3312490265595038362, 0x2DF85458A2BB4A9B, -1761507313596588283, 0x278DDE6E5FD29F05),
  (63, 6624980531190076725, 0x5BF0A8B145769535, -3523014627193176566, 0x4F1BBCDCBFA53E09),
  (64, 13249961062380153450, 0xB7E151628AED2A6B, -7046029254386353131, 0x9E3779B97F4A7C15)]

theorem test_magic_table_0 :
    ∀ e ∈ magicTable0, magicXp e.1 = e.2.1 ∧ magicP e.1 = e.2.2.1 ∧ magicXq e.1 = e.2.2.2.1 ∧ magicQ e.1 = e.2.2.2.2 := by
  decide +kernel

theorem test_magic_table_1 :
    ∀ e ∈ magicTable1, magicXp e.1 = e.2.1 ∧ magicP e.1 = e.2.2.1 ∧ magicXq e.1 = e.2.2.2.1 ∧ magicQ e.1 = e.2.2.2.2 := by
  decide +kernel

theorem test_magic_table_2 :
    ∀ e ∈ magicTable2, magicXp e.1 = e.2.1 ∧ magicP e.1 = e.2.2.1 ∧ magicXq e.1 = e.2.2.2.1 ∧ magicQ e.1 = e.2.2.2.2 := by
  decide +kernel

theorem test_magic_table_3 :
    ∀ e ∈ magicTable3, magicXp e.1 = e.2.1 ∧ magicP e.1 = e.2.2.1 ∧ magicXq e.1 = e.2.2.2.1 ∧ magicQ e.1 = e.2.2.2.2 := by
  decide +kernel

/-! ### One step per command -/

/-- V-CT-1, V-CT-7: STATUS after a NOP, with CTRL.IE = 0 and 1. -/
theorem test_nop_status :
    (after (step (busyState 0#64 0#64 []))).statusWord = 0x2#64 ∧
    (after (step { busyState 0#64 0#64 [] with ie := true })).statusWord = 0xA#64 := by decide +kernel

/-- V-CT-2, V-CT-4: STATUS after an illegal word. -/
theorem test_illegal_status :
    (after (step (busyState 0xFF#64 0#64 []))).statusWord = 0xFF0302#64 ∧
    (after (step (busyState 0x105#64 0#64 []))).statusWord = 0x50302#64 := by decide +kernel

/-- P4, line 3: the pair of width 8. -/
theorem test_gen_magic :
    let t := after (exec .genMagic (keyState (cfgOf 8 0 0 0) []))
    t.magicP = 0xB7#64 ∧ t.magicQ = 0x9D#64 ∧ schedWord t.sched = 0x804#64 := by decide +kernel

/-- V-CG-10: width 65 is BAD_WIDTH. -/
theorem test_gen_magic_bad_width :
    let t := after (exec .genMagic (keyState (cfgOf 65 0 0 0) []))
    t.status.err = .badWidth ∧ t.magicP = 0#64 ∧ schedWord t.sched = 0#64 := by decide +kernel

/-- V-KS-1: the initial fill of width 16 and 16 rounds. -/
theorem test_init_subkeys :
    let t := after (exec .initSubkeys (keyState (cfgOf 16 16 0 0) []))
    t.subCell 0 = 0xB7E1#64 ∧ t.subCell 33 = 0x1CF8#64 ∧ schedWord t.sched = 0x10101005#64 := by decide +kernel

/-- V-KS-7h, on INIT_SUBKEYS: 13 rounds with RMAX = 12 is BAD_ROUNDS. -/
theorem test_init_subkeys_bad_rounds :
    (after (exec .initSubkeys { keyState (cfgOf 32 13 4 0) [] with params := smallParams })).status.err =
      .badRounds := by decide +kernel

/-- V-KS-5, row `w = 16`, `r = 0`, key `[0]`, under a CFG of another width and round count (V-KS-8). -/
theorem test_mix_key :
    let s := schedState .init 16 0 [(0, 0xB7E1#64), (1, 0x5618#64)] 0#64 0#64
    let t := after (exec .mixKey { s with snap := cfgOf 32 2 1 0, keyRam := [(0, 0#64)] })
    t.subCell 0 = 0x7865#64 ∧ t.subCell 1 = 0x33F4#64 ∧ schedWord t.sched = 0x00101006#64 := by decide +kernel

/-- V-KS-7e: MIX_KEY on a READY schedule. -/
theorem test_mix_key_needs_init :
    (after (exec .mixKey (schedState .ready 16 0 [] 0#64 0#64))).status.err = .noSchedule := by decide +kernel

/-- V-KS-5, row `w = 3`, `r = 1`, key `[5]`, with key bits above `w` ignored (R39). -/
theorem test_build_schedule :
    let t := after (exec .buildSchedule (keyState (cfgOf 3 1 1 0) [(0, 0xF5#64)]))
    t.subWords 64 4 = [7, 7, 4, 3] ∧ schedWord t.sched = 0x01030306#64 := by decide +kernel

/-- V-KS-2, V-KS-4: `S[33]` of the spec's scenario, and more key words than subkeys. -/
theorem test_build_words :
    (buildWords 16 16 [0xFFFF, 0xFFFF, 0xFFFF, 0xFFFF]).getD 33 0 = 0xCAD5 ∧
    buildWords 16 1 [1, 2, 3, 4, 5, 6, 7, 8, 9, 10] = [0xB026, 0xB9CC, 0x53D4, 0xB2F2] := by decide +kernel

/-- V-RT-4, row `w = 3`, and V-RT-9: operand bits above `w` are ignored. -/
theorem test_enc_block :
    let sub : Memory := [(0, 7#64), (1, 7#64), (2, 4#64), (3, 3#64)]
    let t := after (exec .encBlock (schedState .ready 3 1 sub 0xFFF1#64 2#64))
    t.dataL = 6#64 ∧ t.dataR = 2#64 := by decide +kernel

/-- V-RT-8: ENC_BLOCK on an INIT schedule changes no block register. -/
theorem test_enc_block_needs_ready :
    let t := after (exec .encBlock (schedState .init 3 1 [] 5#64 6#64))
    t.status.err = .noSchedule ∧ t.dataL = 5#64 ∧ t.dataR = 6#64 := by decide +kernel

/-- V-RT-4, row `w = 3`, decrypted. -/
theorem test_dec_block :
    let sub : Memory := [(0, 7#64), (1, 7#64), (2, 4#64), (3, 3#64)]
    let t := after (exec .decBlock (schedState .ready 3 1 sub 4#64 7#64))
    t.dataL = 7#64 ∧ t.dataR = 7#64 := by decide +kernel

/-- V-RT-6, on the schedule of V-KS-4: a block that was never encrypted. -/
theorem test_dec_block_arbitrary :
    decBlockWords 16 1 [0xB026, 0xB9CC, 0x53D4, 0xB2F2] (0, 0) = (0x4D96, 0x9342) := by decide +kernel

/-- V-BC-3: zero rounds through ENC_MSG. -/
theorem test_enc_msg :
    let s := keyState (cfgOf 16 0 4 2) ffffKey
    let t := after (exec .encMsg { s with msgRam := [(0, 1#64), (1, 0xFFFF#64)] })
    t.msgCell 0 = 0xDC34#64 ∧ t.msgCell 1 = 0xD832#64 ∧ schedWord t.sched = 0x00101006#64 := by decide +kernel

/-- V-ERR-4, V-ERR-6, V-ERR-7: the order of the checks. -/
theorem test_enc_msg_error_order :
    (after (exec .encMsg (keyState (cfgOf 16 0 0 3) []))).status.err = .invalidMessageLength ∧
    (after (exec .encMsg (keyState (cfgOf 16 16 4 1025) []))).status.err = .invalidMessageLength ∧
    (after (exec .encMsg (keyState (cfgOf 16 16 0 2) []))).status.err = .invalidKey := by decide +kernel

/-- V-BC-3, decrypted. -/
theorem test_dec_msg :
    let s := keyState (cfgOf 16 0 4 2) ffffKey
    let t := after (exec .decMsg { s with msgRam := [(0, 0xDC34#64), (1, 0xD832#64)] })
    t.msgCell 0 = 1#64 ∧ t.msgCell 1 = 0xFFFF#64 := by decide +kernel

/-- V-ERR-5, V-ERR-8, on DEC_MSG. -/
theorem test_dec_msg_errors :
    (after (exec .decMsg (keyState (cfgOf 16 16 4 1026) []))).status.err = .messageTooLong ∧
    (after (exec .decMsg (keyState (cfgOf 16 16 257 2) []))).status.err = .keyTooLong := by decide +kernel

/-! ### Host accesses (V-MEM) -/

theorem test_read_id : (after (step (idleState [.read 0x00#19]))).readData = some 0x524335454E473031#64 := by
  decide +kernel
theorem test_read_params : (after (step (idleState [.read 0x08#19]))).readData = some 0x000004000100FF40#64 := by
  decide +kernel
theorem test_write_cfg_drops_reserved :
    (after (step (idleState [.write 0x1D#19 0xFFFFFFFFFFFFFFFF#64]))).cfg = 0x0000FFFFFFFFFF7F#64 := by decide +kernel
theorem test_write_key :
    (after (step (idleState [.write 0x10018#19 7#64]))).keyRam = [(3, 7#64)] ∧
    (after (step (idleState [.write 0x10800#19 7#64]))).keyRam = [] := by decide +kernel
theorem test_write_dropped_while_busy :
    let t := after (step (busyState 7#64 0#64 [.write 0x40000#19 7#64]))
    t.msgRam = [] ∧ t.status.wovr = true := by decide +kernel
theorem test_write_s_ram_ignored :
    let t := after (step (busyState 7#64 0#64 [.write 0x20000#19 7#64]))
    t.sRam = [] ∧ t.status.wovr = false := by decide +kernel
theorem test_write_status_acknowledges :
    let s := { busyState 0#64 0#64 [.engine, .write 0x28#19 2#64] with ie := true }
    (after (step s)).irq = true ∧ (after (step (after (step s)))).statusWord = 0#64 := by decide +kernel

/-- P3, run A, retried for ever: ENC_MSG is in flight and the write of line 11 was dropped. -/
def retryState : State :=
  { busyState 7#64 (cfgOf 16 0 4 2) [] with
    status := { busy := true, done := false, wovr := true, err := .ok, lastop := 7#8 }
    magicP := 0xB7E1#64
    magicQ := 0x9E37#64
    sched := { state := .ready, mvalid := true, mw := 16#7, sw := 16#7, sr := 0#8 }
    keyRam := ffffKey
    sRam := [(0, 0xDC33#64), (1, 0xD833#64)]
    msgRam := [(0, 1#64), (1, 0xFFFF#64)]
    readData := some 0x70006#64
    later := .again [.read 0x28#19, .read 0x28#19, .write 0x28#19 6#64, .write 0x40000#19 1#64,
      .write 0x40008#19 0xFFFF#64, .write 0x20#19 7#64, .write 0x40000#19 7#64] }

/-- One round of P3's retry loop (the completion, then lines 12, 13, 9, 10 and 11) ends in the state it began in, so
the run that takes the branch for ever is a run of the model (R228). -/
theorem test_retry_round_repeats : after (Sys2Proof.core.run 8 retryState) = retryState := by decide +kernel

/-- What the host asks: a table word becomes the next instruction. -/
theorem test_fetch_word :
    decode (State.reset.withFetchWord 64 1).curCmd = .ok .genMagic ∧
    (after (step (State.reset.withFetchWord 64 0))).status.done = true := by decide +kernel

/-! ### Witnesses: states and operands that meet the hypotheses of each obligation -/

theorem test_witness_opcode_map :
    (0x100#64 : Cell).extractLsb' 8 56 ≠ 0#56 ∧ (0x8000000000000000#64 : Cell).extractLsb' 8 56 ≠ 0#56 ∧
    (0x09#64 : Cell).extractLsb' 8 56 = 0#56 ∧ 9 ≤ ((0x09#64 : Cell).extractLsb' 0 8).toNat ∧
    (0xFF#64 : Cell).extractLsb' 8 56 = 0#56 ∧ 9 ≤ ((0xFF#64 : Cell).extractLsb' 0 8).toNat := by decide

theorem test_witness_decode_inverts_encode :
    ∃ (i : Instr) (v : Cell), i.wellFormed = true ∧ decode v = .ok i ∧ v = encode i := ⟨.decMsg, 8#64, by decide⟩

theorem test_witness_step_runs :
    ∃ (s u s' u' : State) (i : Instr), s.status.busy = true ∧ u.status.busy = true ∧
      decode s.curCmd = .ok i ∧ decode u.curCmd = .ok i ∧ EngineHasTheTurn s s' ∧ EngineHasTheTurn u u' :=
  ⟨busyState 5#64 0#64 [.engine, .reset], busyState 5#64 0#64 [], _, _, .encBlock, by decide, by decide, by decide,
    by decide, .inl ⟨[.reset], rfl, rfl⟩, .inr ⟨rfl, rfl⟩⟩

theorem test_witness_idle_engine_turn :
    ∃ s u s' u' : State, s.status.busy = false ∧ u.status.busy = false ∧ EngineHasTheTurn s s' ∧
      EngineHasTheTurn u u' :=
  ⟨idleState [.engine, .reset], idleState [], _, _, by decide, by decide, .inl ⟨[.reset], rfl, rfl⟩,
    .inr ⟨rfl, rfl⟩⟩

/-- No turn listed, with a batch to repeat, and with the free sequence, after it. -/
theorem test_witness_runs_without_end :
    ∃ s u : State, s.turns = [] ∧ s.later = .again [.read 0x28#19] ∧
      1 ≤ ([.read 0x28#19] : List Turn).length ∧ u.turns = [] ∧ u.later = .free 0 :=
  ⟨{ idleState [] with later := .again [.read 0x28#19] }, State.reset, by decide⟩

theorem test_witness_cmd_write :
    ∃ (s u : State) (v : Cell), s.turns = .write 0x20#19 v :: [] ∧ u.turns = .write 0x27#19 v :: [] ∧
      (0x20#19).toNat / 8 * 8 = 0x20 ∧ (0x27#19).toNat / 8 * 8 = 0x20 ∧ s.status.busy = false ∧
      u.status.busy = true :=
  ⟨idleState [.write 0x20#19 1#64], busyState 0#64 0#64 [.write 0x27#19 1#64], 1#64, by decide⟩

theorem test_witness_busy_visible :
    ∃ (s : State) (v : Cell) (rest : List Turn), s.status.busy = false ∧
      s.turns = .write 0x20#19 v :: .read 0x28#19 :: rest :=
  ⟨idleState [.write 0x20#19 1#64, .read 0x28#19], 1#64, [], by decide⟩

theorem test_witness_illegal_word :
    ∃ s u : State, s.status.busy = false ∧ u.status.busy = false ∧
      s.turns = [.write 0x20#19 0x100#64, .engine] ∧ u.turns = [.write 0x20#19 9#64, .engine] ∧
      (0x100#64 : Cell).extractLsb' 8 56 ≠ 0#56 ∧ 9 ≤ ((9#64 : Cell).extractLsb' 0 8).toNat :=
  ⟨idleState [.write 0x20#19 0x100#64, .engine], idleState [.write 0x20#19 9#64, .engine], by decide⟩

theorem test_witness_illegal_word_no_engine_listed :
    ∃ s : State, s.status.busy = false ∧ s.turns = [.write 0x20#19 0xFF#64] ∧
      9 ≤ ((0xFF#64 : Cell).extractLsb' 0 8).toNat :=
  ⟨idleState [.write 0x20#19 0xFF#64], by decide⟩

theorem test_witness_busy : ∃ s : State, s.status.busy = true ∧ s.turns ≠ [] :=
  ⟨busyState 4#64 0#64 [.read 0x28#19], by decide⟩

theorem test_witness_interleaving :
    ∃ (s : State) (accesses rest : List Turn), s.status.busy = true ∧ accesses ≠ [] ∧
      (∀ t ∈ accesses, isHostAccess t = true) ∧ s.turns = accesses ++ .engine :: rest :=
  ⟨busyState 7#64 0#64 [.write 0x18#19 5#64, .read 0x40000#19, .engine, .reset],
    [.write 0x18#19 5#64, .read 0x40000#19], [.reset], by decide⟩

/-- Each clause of the address map, at the ends of its range. -/
theorem test_witness_address_map :
    (∀ n ∈ [0x00, 0x07, 0x08, 0x10, 0x18, 0x20, 0x28, 0x30, 0x38, 0x40, 0x48, 0x50, 0x57],
      (BitVec.ofNat 19 n).toNat / 8 * 8 ∈
        [0x00, 0x08, 0x10, 0x18, 0x20, 0x28, 0x30, 0x38, 0x40, 0x48, 0x50]) ∧
    targetOf Params.default 0x57#19 = .dataR ∧ targetOf Params.default 0x58#19 = .reserved ∧
    targetOf Params.default 0x0FFFF#19 = .reserved ∧ targetOf Params.default 0x10000#19 = .key 0 ∧
    targetOf Params.default 0x107FF#19 = .key 255 ∧ targetOf Params.default 0x10800#19 = .reserved ∧
    targetOf Params.default 0x1FFFF#19 = .reserved ∧ targetOf Params.default 0x20000#19 = .sub 0 ∧
    targetOf Params.default 0x20FFF#19 = .sub 511 ∧ targetOf Params.default 0x21000#19 = .reserved ∧
    targetOf Params.default 0x30000#19 = .reserved ∧ targetOf Params.default 0x3FFFF#19 = .reserved ∧
    targetOf Params.default 0x40000#19 = .msg 0 ∧ targetOf Params.default 0x41FFF#19 = .msg 1023 ∧
    targetOf Params.default 0x42000#19 = .reserved ∧ targetOf Params.default 0x7FFFF#19 = .reserved := by
  decide +kernel

theorem test_witness_register_fields :
    ∃ s u : State, s.params.wellFormed = true ∧ u.params.wellFormed = true ∧
      s.params = { wmax := 64, rmax := 255, kmax := 8192, mmax := 32768 } ∧
      u.params = { wmax := 1, rmax := 0, kmax := 1, mmax := 0 } :=
  ⟨State.powerOn { wmax := 64, rmax := 255, kmax := 8192, mmax := 32768 },
    State.powerOn { wmax := 1, rmax := 0, kmax := 1, mmax := 0 }, by decide⟩

/-- A hidden read while busy, a read that is not hidden while busy, and a hidden target's read while idle. -/
theorem test_witness_reads :
    ∃ s u v : State, s.turns = .read 0x30#19 :: [] ∧ s.status.busy = true ∧
      targetOf s.params 0x30#19 = .magicP ∧ u.turns = .read 0x28#19 :: [] ∧ u.status.busy = true ∧
      targetOf u.params 0x28#19 = .status ∧ v.turns = .read 0x20000#19 :: [] ∧ v.status.busy = false ∧
      targetOf v.params 0x20000#19 = .sub 0 :=
  ⟨busyState 1#64 0#64 [.read 0x30#19], busyState 1#64 0#64 [.read 0x28#19], idleState [.read 0x20000#19],
    by decide +kernel⟩

/-- A write while busy to a target of each clause. -/
theorem test_witness_busy_writes :
    ∀ a ∈ [0x18#19, 0x20#19, 0x48#19, 0x50#19, 0x10000#19, 0x40000#19, 0x10#19, 0x28#19, 0x00#19, 0x20000#19,
      0x30000#19], ∃ s : State, s.turns = .write a 7#64 :: [] ∧ s.status.busy = true :=
  fun a _ => ⟨busyState 1#64 0#64 [.write a 7#64], rfl, rfl⟩

theorem test_witness_busy_write_targets :
    [0x18#19, 0x20#19, 0x48#19, 0x50#19, 0x10000#19, 0x40000#19, 0x10#19, 0x28#19, 0x00#19, 0x20000#19,
      0x30000#19].map (targetOf Params.default) =
      [.cfg, .cmd, .dataL, .dataR, .key 0, .msg 0, .ctrl, .status, .id, .sub 0, .reserved] := by decide +kernel

/-- A write while idle to any address, those of the clauses' targets among them. -/
theorem test_witness_idle_writes (a : Addr) :
    ∃ s : State, s.turns = .write a 7#64 :: [] ∧ s.status.busy = false ∧ s.params = Params.default :=
  ⟨idleState [.write a 7#64], rfl, rfl, rfl⟩

theorem test_witness_wovr :
    ∃ s t u v : State, step s = .next t ∧ s.status.wovr = false ∧ t.status.wovr = true ∧
      s.turns = .write 0x18#19 7#64 :: [] ∧ s.status.busy = true ∧
      droppedWhileBusy (targetOf s.params 0x18#19) = true ∧
      step u = .next v ∧ u.status.wovr = true ∧ v.status.wovr = false :=
  ⟨busyState 1#64 0#64 [.write 0x18#19 7#64], _,
    { idleState [.write 0x28#19 4#64] with status := { Status.atReset with wovr := true } }, _,
    rfl, by decide, by decide, by decide, by decide, by decide, rfl, by decide, by decide⟩

theorem test_witness_irq :
    ∃ s t : State, step s = .next t ∧ s.irq = true ∧ t.irq = false :=
  ⟨{ idleState [.write 0x28#19 2#64] with ie := true, status := { Status.atReset with done := true } }, _, rfl,
    by decide, by decide⟩

theorem test_witness_step : ∃ s t : State, step s = .next t ∧ s.params = smallParams :=
  ⟨{ busyState 0#64 0#64 [] with params := smallParams }, _, rfl, by decide⟩

/-- A reset while idle, with an illegal word of each kind in flight, and with a command in flight that could write
a cell of each RAM inside its size. -/
theorem test_witness_reset_event :
    ∃ s u v w : State, s.turns = .reset :: [] ∧ s.status.busy = false ∧
      u.turns = .reset :: [] ∧ u.status.busy = true ∧ u.curCmd.extractLsb' 8 56 ≠ 0#56 ∧
      v.turns = .reset :: [] ∧ v.status.busy = true ∧ 9 ≤ (v.curCmd.extractLsb' 0 8).toNat ∧
      w.turns = .reset :: [] ∧ w.status.busy = true ∧ decode w.curCmd = .ok .encMsg ∧
      1 < 2 * (w.snapR + 1) ∧ 1 < w.params.smax ∧ 1 < w.snapM ∧ 1 < w.params.mmax :=
  ⟨idleState [.reset], busyState 0x100#64 0#64 [.reset], busyState 9#64 0#64 [.reset],
    busyState 7#64 (cfgOf 16 0 4 2) [.reset], by decide⟩

theorem test_witness_words :
    1 ≤ 1 ∧ (1 : Nat) < 2 ^ 1 ∧ 1 ≤ 64 ∧ 0xFFFFFFFFFFFFFFFF < 2 ^ 64 ∧ (0 : Nat) < 2 ^ 0 := by decide

theorem test_witness_magic_widths : ∀ w ∈ [1, 64], 1 ≤ w ∧ w ≤ 64 := by decide

/-- Legal widths 1 and 64, and the illegal ones beside them. -/
theorem test_witness_widths :
    WidthLegal (keyState (cfgOf 1 0 0 0) []) ∧ WidthLegal (keyState (cfgOf 64 0 0 0) []) ∧
    ¬WidthLegal (keyState (cfgOf 0 0 0 0) []) ∧ ¬WidthLegal (keyState (cfgOf 65 0 0 0) []) := by
  simp only [WidthLegal]; decide

theorem test_witness_initial_fill : 1 ≤ 1 ∧ 1 < 2 * (0 + 1) ∧ 0 < 2 * (0 + 1) := by decide

/-- A legal width with a round count that is, and one that is not, legal. -/
theorem test_witness_rounds :
    let good : State := { keyState (cfgOf 32 12 4 0) [] with params := smallParams }
    let bad : State := { keyState (cfgOf 32 13 4 0) [] with params := smallParams }
    WidthLegal good ∧ RoundsLegal good ∧ WidthLegal bad ∧ ¬RoundsLegal bad := by
  simp only [WidthLegal, RoundsLegal]; decide

theorem test_witness_mix :
    ∃ sub key : List Nat, sub ≠ [] ∧ key ≠ [] ∧ 0 < 3 * max sub.length key.length := ⟨[1, 0], [1], by decide⟩

theorem test_witness_rotation_of_a :
    15 < 2 ^ 4 ∧ 4 ≤ 4 ∧ (3 : Nat) < 2 ^ 2 ∧ (1 : Nat) < 2 ^ 1 ∧ (7 : Nat) < 2 ^ 3 := by decide

/-- Each clause of MIX_KEY: no initial fill, no key, a key too long, and legal keys of 1 and of KMAX words. -/
theorem test_witness_mix_key :
    let init (c : Nat) : State := { schedState .init 16 0 [] 0#64 0#64 with snap := cfgOf 0 0 c 0 }
    (init 4).sched.state ≠ .ready ∧ (idleState []).sched.state ≠ .init ∧ (init 0).snapC = 0 ∧
    (init 257).params.kmax < (init 257).snapC ∧ (init 257).snapC ≠ 0 ∧ (init 1).sched.state = .init ∧
    KeyLegal (init 1) ∧ KeyLegal (init 256) := by
  simp only [KeyLegal]; decide

/-- Legal operands of BUILD_SCHEDULE at their smallest, and operands with an error. -/
theorem test_witness_build :
    let s := keyState (cfgOf 1 0 1 0) [(0, 1#64)]
    s.params.wellFormed = true ∧ WidthLegal s ∧ RoundsLegal s ∧ KeyLegal s ∧
    ruleError .buildSchedule (keyState (cfgOf 16 16 0 0) []) ≠ .ok := by
  simp only [WidthLegal, RoundsLegal, KeyLegal]; decide

/-- Two states that agree in width, rounds and key words of that width alone: the parameters, MLEN, the bits of the
key cell above the width, the S RAM and a block register differ. -/
theorem test_witness_build_repeatable :
    let s := keyState (cfgOf 1 0 1 0) [(0, 1#64)]
    let t := { keyState (cfgOf 1 0 1 6) [(0, 3#64)] with params := smallParams, sRam := [(0, 5#64)], dataL := 9#64 }
    WidthLegal s ∧ RoundsLegal s ∧ KeyLegal s ∧ WidthLegal t ∧ RoundsLegal t ∧ KeyLegal t ∧
    t.snapW = s.snapW ∧ t.snapR = s.snapR ∧ t.snapC = s.snapC ∧ t.params ≠ s.params ∧ t.snap ≠ s.snap ∧
    ∀ j, j < s.snapC → wordOf s.snapW (t.keyCell j) = wordOf s.snapW (s.keyCell j) := by
  simp only [WidthLegal, RoundsLegal, KeyLegal]; decide

theorem test_witness_recurrence : ∃ r i : Nat, 1 ≤ i ∧ i ≤ r := ⟨1, 1, by decide⟩

theorem test_witness_inverse :
    ∃ (w r : Nat) (sub : List Nat) (a b : Nat), 1 ≤ w ∧ a < 2 ^ w ∧ b < 2 ^ w ∧ sub.length = 2 * (r + 1) ∧
      ∀ x ∈ sub, x < 2 ^ w :=
  ⟨3, 1, [7, 7, 4, 3], 7, 7, by decide⟩

theorem test_witness_block_commands :
    ∃ s u : State, s.sched.state = .ready ∧ 1 ≤ s.schedW ∧ s.schedW ≤ 64 ∧ u.sched.state ≠ .ready :=
  ⟨schedState .ready 64 0 [(0, 1#64), (1, 2#64)] 3#64 4#64, schedState .init 64 0 [] 3#64 4#64, by decide⟩

/-- The state ENC_BLOCK leaves, as DEC_BLOCK finds it, with another CFG. -/
theorem test_witness_dec_restores :
    let s := schedState .ready 3 1 [(0, 7#64), (1, 7#64), (2, 4#64), (3, 3#64)] 1#64 2#64
    let t := after (exec .encBlock s)
    let u := { t with cfg := 5#64 }
    exec .encBlock s = .next t ∧ u.sched = s.sched ∧ u.dataL = t.dataL ∧ u.dataR = t.dataR ∧
    ∀ k, k < 2 * (s.schedR + 1) → u.subCell k = s.subCell k := by
  refine ⟨rfl, ?_⟩; decide +kernel

theorem test_witness_klen :
    ∃ (s : State) (v : Cell), cfgKlen v = cfgKlen s.snap ∧ v ≠ s.snap :=
  ⟨keyState (cfgOf 16 16 4 0) ffffKey, cfgOf 32 2 4 6, by decide⟩

theorem test_witness_blocks : ∃ (msg : List Nat) (k : Nat), msg.length % 2 = 0 ∧ 2 * k + 1 < msg.length :=
  ⟨[1, 2, 3, 4], 1, by decide⟩

/-- Legal operands of the message commands at the ends of MLEN's range, and operands with an error. -/
theorem test_witness_message :
    let s (m : Nat) := keyState (cfgOf 16 0 4 m) ffffKey
    (s 0).params.wellFormed = true ∧ WidthLegal (s 0) ∧ RoundsLegal (s 0) ∧ KeyLegal (s 0) ∧
    MessageLegal (s 0) ∧ MessageLegal (s 1024) ∧ ¬MessageLegal (s 1025) ∧
    ruleError .encMsg (s 1026) ≠ .ok ∧ ruleError .decMsg (s 3) ≠ .ok := by
  simp only [WidthLegal, RoundsLegal, KeyLegal, MessageLegal]; decide

/-- The state ENC_MSG leaves, as DEC_MSG finds it, with other block registers. -/
theorem test_witness_message_round_trip :
    let s := { keyState (cfgOf 16 0 4 2) ffffKey with msgRam := [(0, 1#64), (1, 0xFFFF#64)] }
    let t := after (exec .encMsg s)
    let u := { t with dataL := 5#64 }
    exec .encMsg s = .next t ∧ u.params = s.params ∧ u.snap = s.snap ∧
    (∀ j, j < s.snapC → u.keyCell j = s.keyCell j) ∧ ∀ k, k < s.snapM → u.msgCell k = t.msgCell k := by
  refine ⟨rfl, ?_⟩; decide +kernel

theorem test_witness_nop :
    ∃ (s : State) (rest : List Turn), s.status.busy = false ∧ s.turns = .write 0x20#19 0#64 :: .engine :: rest :=
  ⟨idleState [.write 0x20#19 0#64, .engine], [], by decide⟩

theorem test_witness_illegal_in_flight :
    ∃ s u : State, s.status.busy = true ∧ s.turns = .engine :: [] ∧ s.curCmd.extractLsb' 8 56 ≠ 0#56 ∧
      u.status.busy = true ∧ u.turns = .engine :: [] ∧ 9 ≤ (u.curCmd.extractLsb' 0 8).toNat :=
  ⟨busyState 0x100#64 0#64 [.engine], busyState 9#64 0#64 [.engine], by decide⟩

theorem test_witness_illegal_in_flight_no_turns :
    ∃ s : State, s.status.busy = true ∧ s.turns = [] ∧ s.curCmd.extractLsb' 8 56 ≠ 0#56 :=
  ⟨busyState 0x105#64 0#64 [], by decide⟩

theorem test_witness_error :
    ∃ s t u v : State, exec .mixKey s = .next t ∧ t.status.err ≠ .ok ∧ step u = .next v ∧ u.status.busy = true ∧
      u.turns = .engine :: [] ∧ v.status.err ≠ .ok :=
  ⟨idleState [], _, busyState 3#64 0#64 [.engine], _, rfl, by decide, rfl, by decide, by decide, by decide⟩

theorem test_witness_error_no_turns :
    ∃ u v : State, step u = .next v ∧ u.status.busy = true ∧ u.turns = [] ∧ v.status.err ≠ .ok :=
  ⟨busyState 0x105#64 0#64 [], _, rfl, by decide, by decide, by decide⟩

theorem test_witness_frame : ∃ (i : Instr) (s t : State), exec i s = .next t ∧ t.status.err = .ok :=
  ⟨.encMsg, keyState (cfgOf 16 0 4 2) ffffKey, _, rfl, by decide +kernel⟩

theorem test_witness_lifecycle_inv :
    ∃ s t : State, LifecycleInv s ∧ CfgReservedInv s ∧ s.status.busy = true ∧ step s = .next t :=
  ⟨busyState 4#64 0#64 [], _, by unfold LifecycleInv; decide,
    fun i _ => by show (0#64 : Cell).getLsbD i = false; simp, rfl, rfl⟩

/-- A state with an INIT schedule of the smallest width and round count. -/
def initInvState : State := schedState .init 1 0 [(0, 1#64), (1, 0#64)] 0#64 0#64

/-- A state with a READY schedule, the mix of the same fill with the key `[1]`. -/
def readyInvState : State :=
  after (exec .buildSchedule (keyState (cfgOf 1 0 1 0) [(0, 1#64)]))

theorem test_witness_schedule_inv_init :
    ∃ s t : State, s.params.wellFormed = true ∧ ScheduleInv s ∧ RamInv s ∧ s.sched.state = .init ∧
      step s = .next t := by
  refine ⟨initInvState, _, by decide, ⟨fun _ => by decide, fun _ => ?_, nofun⟩, ?_, by decide, rfl⟩
  · unfold SubHolds; decide +kernel
  · unfold RamInv; decide

theorem test_witness_schedule_inv_ready :
    ∃ s t : State, s.params.wellFormed = true ∧ ScheduleInv s ∧ s.sched.state = .ready ∧ step s = .next t := by
  refine ⟨readyInvState, _, by decide, ⟨fun _ => by decide +kernel, nofun, fun _ => ?_⟩, by decide +kernel, rfl⟩
  refine ⟨[1], ⟨by decide, by decide +kernel⟩, by decide +kernel, ?_⟩
  unfold SubHolds; decide +kernel

theorem test_witness_magic_inv :
    ∃ s t : State, MagicInv s ∧ s.sched.mvalid = true ∧ step s = .next t := by
  refine ⟨after (exec .genMagic (keyState (cfgOf 8 0 0 0) [])), _, ?_, by decide +kernel, rfl⟩
  unfold MagicInv MagicIs; decide +kernel

end Sys2Proof.Tests
end

section
/-! PROOFS of 00_scope.md. The word arithmetic of R11 and the rotations of R12 and R13: how each operation behaves,
then the obligations about them; and the build-time parameters of R6, which no turn changes. -/

namespace Sys2Proof.Machine

open Sys2Proof

/-! ### Addition and subtraction -/

theorem addW_eq_ite {w a b : Nat} (ha : a < 2 ^ w) (hb : b < 2 ^ w) :
    addW w a b = if a + b < 2 ^ w then a + b else a + b - 2 ^ w := by
  unfold addW
  split
  case isTrue h => exact Nat.mod_eq_of_lt h
  case isFalse h => rw [Nat.mod_eq_sub_mod (Nat.le_of_not_lt h), Nat.mod_eq_of_lt (by omega)]

theorem subW_eq_ite {w a b : Nat} (ha : a < 2 ^ w) (hb : b < 2 ^ w) :
    subW w a b = if b ≤ a then a - b else a + 2 ^ w - b := by
  unfold subW
  split
  case isTrue h =>
    rw [Nat.sub_add_comm h, Nat.add_mod_right, Nat.mod_eq_of_lt (by omega)]
  case isFalse h => exact Nat.mod_eq_of_lt (by omega)

theorem addW_addW (w a b c : Nat) : addW w (addW w a b) c = (a + b + c) % 2 ^ w := Nat.mod_add_mod ..

theorem subW_addW_cancel {w a b : Nat} (ha : a < 2 ^ w) (hb : b < 2 ^ w) : subW w (addW w a b) b = a := by
  rw [subW_eq_ite (addW_lt ..) hb, addW_eq_ite ha hb]
  split <;> split <;> omega

theorem addW_subW_cancel {w a b : Nat} (ha : a < 2 ^ w) (hb : b < 2 ^ w) : addW w (subW w a b) b = a := by
  rw [addW_eq_ite (subW_lt ..) hb, subW_eq_ite ha hb]
  split <;> split <;> omega

/-- Settles O22, from the case equations of the two operations. -/
theorem wordArithmeticWraps : Obligations.WordArithmeticWraps := fun w a b c ha hb _ =>
  ⟨addW_eq_ite ha hb, subW_eq_ite ha hb, addW_addW w a b c, subW_addW_cancel ha hb, addW_subW_cancel ha hb,
    xorW_lt ha hb⟩

/-! ### Rotations -/

/-- A word `x` of `a + b` bits with its low `b` bits moved above its high `a` bits. Both rotations are of this form
(`rotlW_eq_swapParts`, `rotrW_eq_swapParts`). -/
def swapParts (a b x : Nat) : Nat := x % 2 ^ b * 2 ^ a + x / 2 ^ b

theorem div_two_pow_lt {a b x : Nat} (hx : x < 2 ^ (a + b)) : x / 2 ^ b < 2 ^ a :=
  Nat.div_lt_of_lt_mul (by rwa [← Nat.pow_add, Nat.add_comm])

theorem swapParts_swapParts {a b x : Nat} (hx : x < 2 ^ (a + b)) : swapParts b a (swapParts a b x) = x := by
  have hhigh := div_two_pow_lt hx
  have hdiv : swapParts a b x / 2 ^ a = x % 2 ^ b := by
    rw [swapParts, Nat.add_comm, Nat.add_mul_div_right _ _ (Nat.two_pow_pos a), Nat.div_eq_of_lt hhigh, Nat.zero_add]
  have hmod : swapParts a b x % 2 ^ a = x / 2 ^ b := by
    rw [swapParts, Nat.mul_add_mod_self_right, Nat.mod_eq_of_lt hhigh]
  rw [swapParts, hdiv, hmod, Nat.div_add_mod']

theorem rotlW_eq_swapParts {w x : Nat} (n : Nat) (hw : 0 < w) (hx : x < 2 ^ w) :
    rotlW w x n = swapParts (n % w) (w - n % w) x := by
  unfold rotlW swapParts
  split
  case isTrue h0 => simp [h0, Nat.mod_eq_of_lt hx, Nat.div_eq_of_lt hx]
  case isFalse => rw [mul_pow_mod (Nat.mod_lt n hw).le]

theorem rotrW_eq_swapParts {w : Nat} (x n : Nat) (hw : 0 < w) :
    rotrW w x n = swapParts (w - n % w) (n % w) x := by
  unfold rotrW swapParts
  split
  case isTrue h0 => simp [h0, Nat.mod_one]
  case isFalse =>
    rw [mul_pow_mod (Nat.sub_le ..), Nat.sub_sub_self (Nat.mod_lt n hw).le, Nat.add_comm]

theorem rotrW_rotlW {w x : Nat} (n : Nat) (hw : 0 < w) (hx : x < 2 ^ w) : rotrW w (rotlW w x n) n = x := by
  have hsum : n % w + (w - n % w) = w := Nat.add_sub_of_le (Nat.mod_lt n hw).le
  rw [rotrW_eq_swapParts _ _ hw, rotlW_eq_swapParts n hw hx, swapParts_swapParts (by rwa [hsum])]

theorem rotlW_rotrW {w x : Nat} (n : Nat) (hw : 0 < w) (hx : x < 2 ^ w) : rotlW w (rotrW w x n) n = x := by
  have hsum : w - n % w + n % w = w := Nat.sub_add_cancel (Nat.mod_lt n hw).le
  rw [rotlW_eq_swapParts n hw (rotrW_lt n hw hx), rotrW_eq_swapParts _ _ hw, swapParts_swapParts (by rwa [hsum])]

theorem rotlW_width (w x : Nat) : rotlW w x w = x := if_pos (Nat.mod_self w)

/-- Settles O20: a rotation exchanges the two parts of a word, and the opposite one exchanges them back. -/
theorem rotationLaws : Obligations.RotationLaws := fun w x n hw hx =>
  ⟨rotrW_rotlW n hw hx, rotlW_rotrW n hw hx, rotlW_width w x⟩

/-- The two parts share no bit, so their sum is their bitwise or. -/
theorem swapParts_eq_or {a b x : Nat} (hx : x < 2 ^ (a + b)) :
    swapParts a b x = x * 2 ^ a % 2 ^ (a + b) ||| x / 2 ^ b := by
  have hhigh := div_two_pow_lt hx
  rw [mul_pow_mod (Nat.le_add_right a b), Nat.add_sub_cancel_left, Nat.mul_comm,
    ← Nat.two_pow_add_eq_or_of_lt hhigh, Nat.mul_comm, swapParts]

theorem rotlW_toNat {w : Nat} (x : BitVec w) (n : Nat) (hw : 0 < w) :
    rotlW w x.toNat n = (x.rotateLeft n).toNat := by
  have hsum : n % w + (w - n % w) = w := Nat.add_sub_of_le (Nat.mod_lt n hw).le
  rw [rotlW_eq_swapParts n hw x.isLt, swapParts_eq_or (by rw [hsum]; exact x.isLt), hsum,
    BitVec.toNat_rotateLeft, Nat.shiftLeft_eq, Nat.shiftRight_eq_div_pow]

theorem rotrW_toNat {w : Nat} (x : BitVec w) (n : Nat) (hw : 0 < w) :
    rotrW w x.toNat n = (x.rotateRight n).toNat := by
  have hsum : w - n % w + n % w = w := Nat.sub_add_cancel (Nat.mod_lt n hw).le
  rw [rotrW_eq_swapParts _ n hw, swapParts_eq_or (by rw [hsum]; exact x.isLt), hsum,
    BitVec.toNat_rotateRight, Nat.shiftLeft_eq, Nat.shiftRight_eq_div_pow, Nat.or_comm]

/-- Settles O21: the two parts of a rotated word share no bit, so the sum of R12 is the bit vector's `|||`. -/
theorem rotationsAreBitRotations : Obligations.RotationsAreBitRotations := fun _ x n hw =>
  ⟨rotlW_toNat x n hw, rotrW_toNat x n hw⟩

/-! ### The build-time parameters -/

@[simp] theorem State.writeTarget_params (v : Cell) (s : State) (x : Target) :
    (s.writeTarget v x).params = s.params := by
  cases x <;> rfl

@[simp] theorem State.hostRead_params (a : Addr) (s : State) : (s.hostRead a).params = s.params := by
  obtain ⟨-, -, h⟩ | ⟨-, h⟩ := s.hostRead_cases a <;> rw [h]

@[simp] theorem State.hostWrite_params (a : Addr) (v : Cell) (s : State) : (s.hostWrite a v).params = s.params := by
  obtain ⟨-, -, h⟩ | ⟨-, h⟩ := s.hostWrite_cases a v
  · rw [h, State.dropWrite_params]
  · rw [h, State.writeTarget_params]

theorem completion_params {s t : State} (h : completion s = .next t) : t.params = s.params := by
  obtain ⟨u, e, rfl, ⟨hparams, -⟩, -⟩ := completion_form h
  rw [State.complete_params, hparams]

/-- R6: the parameters are constant for a machine. -/
theorem step_params {s t : State} (h : step s = .next t) : t.params = s.params := by
  obtain ⟨_, _, -, ⟨-, hc⟩ | ⟨-, rfl⟩⟩ | ⟨_, _, -, rfl⟩ | ⟨_, _, _, -, rfl⟩ | ⟨_, -, rfl⟩ := step_cases h
  case inl.inl => exact (completion_params hc :)
  case inl.inr => rfl
  case inr.inl => rw [State.hostRead_params]
  case inr.inr.inl => rw [State.hostWrite_params]
  case inr.inr.inr => rw [State.resetEvent_params]

/-- Settles O17: ID is a constant, and PARAMS is a function of the parameters, which no turn changes. -/
theorem identificationIsConstant : Obligations.IdentificationIsConstant := fun _ _ h =>
  ⟨step_params h, rfl, congrArg paramsWord (step_params h)⟩

end Sys2Proof.Machine
end

section
/-! PROOFS of 10_state.md. What each kind of turn does to the registers and the RAMs, the step rule of an invariant,
and the obligations about the state: the invariants that every step keeps and power-on establishes (R25, R27, R34 to
R45), the layout of the registers (R23 to R36) and the sticky WOVR (R30). -/

namespace Sys2Proof.Machine

open Sys2Proof

/-! ### One rule for every invariant -/

/-- A host read changes the model's own fields alone. -/
theorem State.hostRead_form (a : Addr) (s : State) :
    ∃ readData draws, s.hostRead a = { s with readData := readData, draws := draws } := by
  obtain ⟨-, -, h⟩ | ⟨-, h⟩ := s.hostRead_cases a <;> exact ⟨_, _, h⟩

/-- The step rule: where `P` does not speak of the model's own fields, `Q` holds after a step from `P` if it holds
after nothing at all, after a completion, after a host write and after a reset. -/
theorem step_rule {P Q : State → Prop}
    (own : ∀ s turns later readData draws, P s →
      P { s with turns := turns, later := later, readData := readData, draws := draws })
    (idle : ∀ s, P s → Q s)
    (complete : ∀ s t, P s → completion s = .next t → Q t)
    (write : ∀ s a v, P s → Q (s.hostWrite a v))
    (reset : ∀ s, P s → Q s.resetEvent)
    {s t : State} (hs : P s) (h : step s = .next t) : Q t := by
  obtain ⟨_, _, -, ⟨-, hc⟩ | ⟨-, rfl⟩⟩ | ⟨a, rest, -, rfl⟩ | ⟨_, _, _, -, rfl⟩ | ⟨_, -, rfl⟩ := step_cases h
  case inl.inl => exact complete _ _ (own s _ _ s.readData s.draws hs) hc
  case inl.inr => exact idle _ (own s _ _ s.readData s.draws hs)
  case inr.inl =>
    obtain ⟨readData, draws, hread⟩ := State.hostRead_form a { s with turns := rest }
    rw [hread]
    exact idle _ (own s rest s.later readData draws hs)
  case inr.inr.inl => exact write _ _ _ (own s _ s.later s.readData s.draws hs)
  case inr.inr.inr => exact reset _ (own s _ s.later s.readData s.draws hs)

/-! ### What a host write leaves as it was -/

/-- R62: no host write reaches the magic registers, SCHED or the S RAM. -/
theorem State.writeTarget_results (v : Cell) (s : State) (x : Target) :
    (s.writeTarget v x).magicP = s.magicP ∧ (s.writeTarget v x).magicQ = s.magicQ ∧
      (s.writeTarget v x).sched = s.sched ∧ (s.writeTarget v x).sRam = s.sRam := by
  cases x <;> exact ⟨rfl, rfl, rfl, rfl⟩

theorem State.hostWrite_results (a : Addr) (v : Cell) (s : State) :
    (s.hostWrite a v).magicP = s.magicP ∧ (s.hostWrite a v).magicQ = s.magicQ ∧
      (s.hostWrite a v).sched = s.sched ∧ (s.hostWrite a v).sRam = s.sRam := by
  obtain ⟨-, -, h⟩ | ⟨-, h⟩ := s.hostWrite_cases a v <;> rw [h]
  · exact ⟨rfl, rfl, rfl, rfl⟩
  · exact s.writeTarget_results v _

/-! ### What the checks of a command establish -/

/-- A command makes its writes exactly when none of its checks applies (R184). -/
theorem firstError_eq_none_iff (checks : List (Bool × ErrCode)) :
    firstError checks = none ↔ ∀ c ∈ checks, c.1 = false := by
  induction checks with
  | nil => simp [firstError]
  | cons c rest ih =>
    obtain ⟨applies, e⟩ := c
    cases applies <;> simp [firstError_cons, ih]

theorem State.badWidth_eq_false_iff (s : State) : s.badWidth = false ↔ WidthLegal s := by
  simp only [State.badWidth, WidthLegal, decide_eq_false_iff_not]; omega

theorem State.badRounds_eq_false_iff (s : State) : s.badRounds = false ↔ RoundsLegal s := by
  simp [State.badRounds, RoundsLegal]

theorem State.keyChecks_eq_false_iff (s : State) : s.emptyKey = false ∧ s.longKey = false ↔ KeyLegal s := by
  simp only [State.emptyKey, State.longKey, KeyLegal, decide_eq_false_iff_not]; omega

theorem State.messageLengthChecks_eq_false_iff (s : State) :
    s.oddMessage = false ∧ s.longMessage = false ↔ MessageLegal s := by
  simp [State.oddMessage, State.longMessage, MessageLegal]

/-- What a command needs of its operands to make its writes, read off the table of R184. -/
def OperandsLegal : Instr → State → Prop
  | .nop, _ => True
  | .genMagic, s => WidthLegal s
  | .initSubkeys, s => WidthLegal s ∧ RoundsLegal s
  | .mixKey, s => s.sched.state = .init ∧ KeyLegal s
  | .buildSchedule, s => WidthLegal s ∧ RoundsLegal s ∧ KeyLegal s
  | .encBlock, s => s.sched.state = .ready
  | .decBlock, s => s.sched.state = .ready
  | .encMsg, s => WidthLegal s ∧ RoundsLegal s ∧ MessageLegal s ∧ KeyLegal s
  | .decMsg, s => WidthLegal s ∧ RoundsLegal s ∧ MessageLegal s ∧ KeyLegal s

theorem firstError_checksOf_eq_none_iff (i : Instr) (s : State) :
    firstError (checksOf i s) = none ↔ OperandsLegal i s := by
  cases i <;>
    simp [firstError_eq_none_iff, checksOf, State.messageChecks, OperandsLegal, State.schedNot,
      ← s.badWidth_eq_false_iff, ← s.badRounds_eq_false_iff, ← s.keyChecks_eq_false_iff,
      ← s.messageLengthChecks_eq_false_iff, and_assoc]

/-- A completion changes STATUS alone, or it ends a command with legal operands, with that command's writes made. -/
theorem completion_writes {s t : State} (h : completion s = .next t) :
    (∃ e, t = s.complete e) ∨ ∃ i, OperandsLegal i s ∧ t = (writesOf i s).complete .ok := by
  obtain ⟨-, rfl⟩ | ⟨i, -, hexec⟩ := completion_cases h
  · exact .inl ⟨_, rfl⟩
  obtain ⟨e, -, rfl⟩ | ⟨hnone, rfl⟩ := exec_cases hexec
  · exact .inl ⟨e, rfl⟩
  · exact .inr ⟨i, (firstError_checksOf_eq_none_iff i s).1 hnone, rfl⟩

/-- The step rule for a property that STATUS does not matter to: a completion counts by its writes. -/
theorem step_rule_of_writes {P Q : State → Prop}
    (own : ∀ s turns later readData draws, P s →
      P { s with turns := turns, later := later, readData := readData, draws := draws })
    (idle : ∀ s, P s → Q s)
    (status : ∀ s e, Q s → Q (s.complete e))
    (writes : ∀ i s, P s → OperandsLegal i s → Q (writesOf i s))
    (write : ∀ s a v, P s → Q (s.hostWrite a v))
    (reset : ∀ s, P s → Q s.resetEvent)
    {s t : State} (hs : P s) (h : step s = .next t) : Q t := by
  refine step_rule own idle (fun s t hs hc => ?_) write reset hs h
  obtain ⟨e, rfl⟩ | ⟨i, hlegal, rfl⟩ := completion_writes hc
  · exact status s e (idle s hs)
  · exact status _ .ok (writes i s hs hlegal)

/-! ### The command lifecycle -/

theorem LifecycleInv.of_idle {s : State} (h : s.status.busy = false) : LifecycleInv s :=
  fun hb => absurd hb (by simp [h])

theorem LifecycleInv.startCommand (v : Cell) (s : State) : LifecycleInv (s.startCommand v) :=
  fun _ => ⟨rfl, rfl, rfl, rfl⟩

theorem LifecycleInv.hostWrite {s : State} (hs : LifecycleInv s) (a : Addr) (v : Cell) :
    LifecycleInv (s.hostWrite a v) := by
  obtain ⟨-, -, h⟩ | ⟨hnot, h⟩ := s.hostWrite_cases a v <;> rw [h]
  · exact hs
  cases htarget : targetOf s.params a
  case cfg =>
    have hbusy : s.status.busy = false := by simpa [htarget, droppedWhileBusy] using hnot
    exact .of_idle hbusy
  case cmd => exact .startCommand v s
  case status =>
    intro hb
    obtain ⟨hdone, hrest⟩ := hs hb
    exact ⟨by simp [State.writeTarget, hdone], hrest⟩
  all_goals exact hs

theorem LifecycleInv.completion {s t : State} (h : completion s = .next t) : LifecycleInv t := by
  obtain ⟨u, e, rfl, -⟩ := completion_form h
  exact .of_idle rfl

theorem cfgMask_reserved {i : Nat} (hi : i = 7 ∨ 48 ≤ i) : cfgMask.getLsbD i = false := by
  obtain rfl | hi := hi
  · decide
  · have hpow : 2 ^ 48 ≤ 2 ^ i := Nat.pow_le_pow_right (by decide) hi
    exact Nat.testBit_lt_two_pow (lt_of_lt_of_le (by decide) hpow)

theorem CfgReservedInv.hostWrite {s : State} (hs : CfgReservedInv s) (a : Addr) (v : Cell) :
    CfgReservedInv (s.hostWrite a v) := by
  obtain ⟨-, -, h⟩ | ⟨-, h⟩ := s.hostWrite_cases a v <;> rw [h]
  · exact hs
  cases targetOf s.params a
  case cfg =>
    intro i hi
    simp [State.writeTarget, cfgMask_reserved hi]
  all_goals exact hs

theorem CfgReservedInv.completion {s t : State} (hs : CfgReservedInv s) (h : completion s = .next t) :
    CfgReservedInv t := by
  obtain ⟨u, e, rfl, ⟨-, -, hcfg, -⟩, -⟩ := completion_form h
  simpa [CfgReservedInv, hcfg] using hs

theorem CfgReservedInv.resetEvent (s : State) : CfgReservedInv s.resetEvent := by
  intro i _
  simp

/-- Settles O50: a command's start establishes the lifecycle, no write that the busy window lets through breaks it,
and a completion or a reset leaves the engine idle; a write to CFG is masked. -/
theorem stepKeepsTheLifecycle : Obligations.StepKeepsTheLifecycle := fun _ _ hlife hcfg h =>
  step_rule (P := fun s => LifecycleInv s ∧ CfgReservedInv s) (Q := fun s => LifecycleInv s ∧ CfgReservedInv s)
    (own := fun _ _ _ _ _ hs => hs)
    (idle := fun _ hs => hs)
    (complete := fun _ _ hs hc => ⟨.completion hc, hs.2.completion hc⟩)
    (write := fun _ a v hs => ⟨hs.1.hostWrite a v, hs.2.hostWrite a v⟩)
    (reset := fun s _ => ⟨.of_idle rfl, .resetEvent s⟩)
    ⟨hlife, hcfg⟩ h

/-! ### The magic pair -/

theorem State.snapW_ofNat (s : State) : (BitVec.ofNat 7 s.snapW).toNat = s.snapW := by
  simp [State.snapW]

theorem State.snapR_ofNat (s : State) : (BitVec.ofNat 8 s.snapR).toNat = s.snapR := by
  simp [State.snapR]

theorem MagicInv.congr {s t : State} (hs : MagicInv s) (hparams : t.params = s.params) (hp : t.magicP = s.magicP)
    (hq : t.magicQ = s.magicQ) (hvalid : t.sched.mvalid = s.sched.mvalid) (hw : t.sched.mw = s.sched.mw) :
    MagicInv t := by
  simpa only [MagicInv, MagicIs, hparams, hp, hq, hvalid, hw] using hs

/-- Writing the pair of a legal width establishes the invariant (R109). -/
theorem MagicInv.of_magicIs {w : Nat} {t : State} (h : MagicIs w t) (hpos : 1 ≤ w) (hmax : w ≤ t.params.wmax) :
    MagicInv t := by
  intro _
  obtain ⟨-, -, -, hw⟩ := id h
  rw [hw]
  exact ⟨hpos, hmax, h⟩

theorem State.writeMagic_magicIs (s u : State) : MagicIs s.snapW (u.writeMagic s.snapW) :=
  ⟨rfl, rfl, rfl, s.snapW_ofNat⟩

theorem State.writeSchedule_magicIs (s u : State) (r : Nat) (ws : List Nat) (st : SchedState) :
    MagicIs s.snapW (u.writeSchedule s.snapW r ws st) :=
  ⟨rfl, rfl, rfl, s.snapW_ofNat⟩

theorem MagicInv.writeBlock {s : State} (hs : MagicInv s) (ab : Nat × Nat) : MagicInv (s.writeBlock ab) := hs

theorem MagicInv.writeMix {s : State} (hs : MagicInv s) (ws : List Nat) (st : SchedState) :
    MagicInv ((s.writeSub ws).writeSchedState st) := hs

theorem MagicInv.writeSchedule {s u : State} (hparams : u.params = s.params) (hwidth : WidthLegal s) (r : Nat)
    (ws : List Nat) (st : SchedState) : MagicInv (u.writeSchedule s.snapW r ws st) :=
  .of_magicIs (s.writeSchedule_magicIs u r ws st) hwidth.1 (by rw [State.writeSchedule_params, hparams]; exact hwidth.2)

theorem MagicInv.writesOf {i : Instr} {s : State} (hs : MagicInv s) (hlegal : OperandsLegal i s) :
    MagicInv (writesOf i s) := by
  cases i
  case nop => exact hs
  case mixKey => exact hs.writeMix _ _
  case encBlock | decBlock => exact hs.writeBlock _
  case genMagic => exact .of_magicIs (s.writeMagic_magicIs s) hlegal.1 hlegal.2
  case initSubkeys | buildSchedule => exact .writeSchedule rfl hlegal.1 _ _ _
  case encMsg | decMsg => exact .writeSchedule (State.writeMsg_params ..) hlegal.1 _ _ _

theorem MagicInv.hostWrite {s : State} (hs : MagicInv s) (a : Addr) (v : Cell) : MagicInv (s.hostWrite a v) := by
  obtain ⟨hp, hq, hsched, -⟩ := s.hostWrite_results a v
  exact hs.congr (s.hostWrite_params a v) hp hq (by rw [hsched]) (by rw [hsched])

theorem MagicInv.of_invalid {s : State} (h : s.sched.mvalid = false) : MagicInv s :=
  fun hvalid => absurd hvalid (by simp [h])

/-- Settles O52: a command writes the pair of its captured width, a legal one, or leaves pair, MW and MVALID alone;
no host write reaches them, and a reset clears MVALID. -/
theorem stepKeepsTheMagicPair : Obligations.StepKeepsTheMagicPair := fun _ _ hs h =>
  step_rule_of_writes (P := MagicInv) (Q := MagicInv)
    (own := fun _ _ _ _ _ hs => hs)
    (idle := fun _ hs => hs)
    (status := fun _ _ hs => hs)
    (writes := fun _ _ hs hlegal => hs.writesOf hlegal)
    (write := fun _ a v hs => hs.hostWrite a v)
    (reset := fun _ _ => .of_invalid rfl)
    hs h

/-! ### The schedule -/

theorem ScheduleInv.congr {s t : State} (hs : ScheduleInv s) (hparams : t.params = s.params)
    (hsched : t.sched = s.sched) (hram : t.sRam = s.sRam) : ScheduleInv t := by
  simpa only [ScheduleInv, SubHolds, State.subCell_congr hram, State.schedW_congr hsched,
    State.schedR_congr hsched, hparams, hsched] using hs

theorem ScheduleInv.of_empty {s : State} (h : s.sched.state = .empty) : ScheduleInv s := by
  simp [ScheduleInv, h]

theorem paramsWellFormed_iff (p : Params) :
    p.wellFormed = true ↔ 1 ≤ p.wmax ∧ p.wmax ≤ 64 ∧ p.rmax ≤ 255 ∧ 1 ≤ p.kmax ∧ p.kmax ≤ 8192 ∧
      p.mmax % 2 = 0 ∧ p.mmax ≤ 32768 := by
  simp [Params.wellFormed, and_assoc]

/-- A schedule that was written is read back: the words of width `w` in the S RAM are those it holds. -/
theorem State.subWords_of_subHolds {s : State} {w : Nat} {ws : List Nat} (hw : w ≤ 64)
    (hwords : ∀ y ∈ ws, y < 2 ^ w) (h : SubHolds ws.length ws s) : s.subWords w ws.length = ws := by
  refine List.ext_getElem (by simp) fun k _ hk => ?_
  simp only [State.subWords, List.getElem_map, List.getElem_range]
  rw [h k hk, List.getD_eq_getElem _ _ hk, wordOf_zext64 hw (hwords _ (List.getElem_mem hk))]

theorem State.writeSub_subHolds (ws : List Nat) (s : State) : SubHolds ws.length ws (s.writeSub ws) :=
  fun k hk => by rw [State.writeSub_subCell, if_pos hk]

theorem State.writeSchedule_subHolds (w r : Nat) (ws : List Nat) (st : SchedState) (s : State) :
    SubHolds ws.length ws (s.writeSchedule w r ws st) :=
  fun k hk => by rw [State.writeSchedule_subCell, if_pos hk]

theorem isKey_keyWords {s : State} {c : Nat} (w : Nat) (hc : 1 ≤ c) : IsKey w (s.keyWords w c) :=
  ⟨List.ne_nil_of_length_pos (by rwa [State.keyWords_length]), s.keyWords_words w c⟩

/-- What R37 asks of SCHED whenever a schedule is held. -/
def ScheduleLegal (s : State) : Prop :=
  1 ≤ s.schedW ∧ s.schedW ≤ s.params.wmax ∧ s.schedR ≤ s.params.rmax ∧ s.sched.mvalid = true

theorem ScheduleInv.of_fill {s : State} (hlegal : ScheduleLegal s) (hstate : s.sched.state = .init)
    (hsub : SubHolds (subkeyCount s.schedR) (initialFill s.schedW s.schedR) s) : ScheduleInv s := by
  simp only [ScheduleInv, hstate]
  exact ⟨fun _ => hlegal, fun _ => hsub, nofun⟩

theorem ScheduleInv.of_build {s : State} {key : List Nat} (hlegal : ScheduleLegal s)
    (hstate : s.sched.state = .ready) (hkey : IsKey s.schedW key) (hlength : key.length ≤ s.params.kmax)
    (hsub : SubHolds (subkeyCount s.schedR) (buildWords s.schedW s.schedR key) s) : ScheduleInv s := by
  simp only [ScheduleInv, hstate]
  exact ⟨fun _ => hlegal, nofun, fun _ => ⟨key, hkey, hlength, hsub⟩⟩

section writeScheduleOperands

variable (s u : State) (ws : List Nat) (st : SchedState)

theorem State.writeSchedule_schedW : (u.writeSchedule s.snapW s.snapR ws st).schedW = s.snapW := s.snapW_ofNat

theorem State.writeSchedule_schedR : (u.writeSchedule s.snapW s.snapR ws st).schedR = s.snapR := s.snapR_ofNat

theorem State.writeSchedule_legal (hparams : u.params = s.params) (hwidth : WidthLegal s) (hrounds : RoundsLegal s) :
    ScheduleLegal (u.writeSchedule s.snapW s.snapR ws st) := by
  simp only [ScheduleLegal, State.writeSchedule_schedW, State.writeSchedule_schedR, State.writeSchedule_params,
    State.writeSchedule_sched, hparams]
  exact ⟨hwidth.1, hwidth.2, hrounds, trivial⟩

end writeScheduleOperands

/-- INIT_SUBKEYS writes the fill of the captured width and round count (R116). -/
theorem scheduleInv_initSubkeys {s : State} (hwidth : WidthLegal s) (hrounds : RoundsLegal s) :
    ScheduleInv (s.writeSchedule s.snapW s.snapR (initialFill s.snapW s.snapR) .init) := by
  refine .of_fill (s.writeSchedule_legal s _ _ rfl hwidth hrounds) rfl ?_
  rw [s.writeSchedule_schedW, s.writeSchedule_schedR, subkeyCount, ← initialFill_length s.snapW s.snapR]
  exact s.writeSchedule_subHolds _ _ _ _

/-- A build writes the mix of that fill with the key words of the captured width and length (R126). -/
theorem scheduleInv_build {s u : State} (hparams : u.params = s.params) (hwidth : WidthLegal s)
    (hrounds : RoundsLegal s) (hkey : KeyLegal s) :
    ScheduleInv (u.writeSchedule s.snapW s.snapR s.builtSub .ready) := by
  refine .of_build (key := s.keyWords s.snapW s.snapC) (s.writeSchedule_legal u _ _ hparams hwidth hrounds) rfl ?_ ?_ ?_
  · rw [s.writeSchedule_schedW]
    exact isKey_keyWords _ hkey.1
  · rw [State.keyWords_length, State.writeSchedule_params, hparams]
    exact hkey.2
  · rw [s.writeSchedule_schedW, s.writeSchedule_schedR, subkeyCount,
      ← buildWords_length s.snapW s.snapR (s.keyWords s.snapW s.snapC)]
    exact u.writeSchedule_subHolds _ _ _ _

@[simp] theorem State.mixedSub_length (s : State) : s.mixedSub.length = subkeyCount s.schedR := by
  simp [State.mixedSub]

@[simp] theorem State.builtSub_length (s : State) : s.builtSub.length = subkeyCount s.snapR :=
  buildWords_length ..

/-- On an INIT schedule MIX_KEY computes what a build of the stored width and round count would (R121, R124). -/
theorem ScheduleInv.mixedSub_eq {s : State} (hs : ScheduleInv s) (hinit : s.sched.state = .init)
    (hwf : s.params.wellFormed = true) :
    s.mixedSub = buildWords s.schedW s.schedR (s.keyWords s.schedW s.snapC) := by
  obtain ⟨hlegal, hfill, -⟩ := hs
  obtain ⟨-, hmax, -, -⟩ := hlegal (by simp [hinit])
  obtain ⟨-, hwmax, -⟩ := (paramsWellFormed_iff s.params).1 hwf
  have hread : s.subWords s.schedW (subkeyCount s.schedR) = initialFill s.schedW s.schedR := by
    have hlength : (initialFill s.schedW s.schedR).length = subkeyCount s.schedR := initialFill_length ..
    rw [← hlength]
    refine State.subWords_of_subHolds (hmax.trans hwmax) (initialFill_words _ _) ?_
    rw [hlength]
    exact hfill hinit
  rw [State.mixedSub, hread, buildWords]

theorem scheduleInv_mixKey {s : State} {ws : List Nat} (hlegal : ScheduleLegal s) (hkey : KeyLegal s)
    (hws : ws = buildWords s.schedW s.schedR (s.keyWords s.schedW s.snapC)) :
    ScheduleInv ((s.writeSub ws).writeSchedState .ready) := by
  refine .of_build (key := s.keyWords s.schedW s.snapC) hlegal rfl (isKey_keyWords _ hkey.1) ?_ ?_
  · rw [State.keyWords_length]
    exact hkey.2
  · have hlength : ws.length = subkeyCount s.schedR := by rw [hws]; exact buildWords_length ..
    have hsub := s.writeSub_subHolds ws
    rw [hlength] at hsub
    exact hws ▸ hsub

theorem ScheduleInv.writeBlock {s : State} (hs : ScheduleInv s) (ab : Nat × Nat) : ScheduleInv (s.writeBlock ab) := hs

/-- GEN_MAGIC sets MVALID and leaves the schedule (R108). -/
theorem ScheduleInv.writeMagic {s : State} (hs : ScheduleInv s) (w : Nat) : ScheduleInv (s.writeMagic w) := by
  obtain ⟨hlegal, hcells⟩ := hs
  refine ⟨fun hstate => ?_, hcells⟩
  obtain ⟨hpos, hmax, hrounds, -⟩ := hlegal hstate
  exact ⟨hpos, hmax, hrounds, rfl⟩

theorem ScheduleInv.writesOf {i : Instr} {s : State} (hwf : s.params.wellFormed = true) (hs : ScheduleInv s)
    (hlegal : OperandsLegal i s) : ScheduleInv (writesOf i s) := by
  cases i
  case nop => exact hs
  case encBlock | decBlock => exact hs.writeBlock _
  case genMagic => exact hs.writeMagic _
  case initSubkeys => exact scheduleInv_initSubkeys hlegal.1 hlegal.2
  case mixKey =>
    obtain ⟨hinit, hkey⟩ := hlegal
    exact scheduleInv_mixKey (hs.1 (by simp [hinit])) hkey (hs.mixedSub_eq hinit hwf)
  case buildSchedule =>
    obtain ⟨hwidth, hrounds, hkey⟩ := hlegal
    exact scheduleInv_build rfl hwidth hrounds hkey
  case encMsg | decMsg =>
    obtain ⟨hwidth, hrounds, -, hkey⟩ := hlegal
    exact scheduleInv_build (State.writeMsg_params ..) hwidth hrounds hkey

theorem ScheduleInv.hostWrite {s : State} (hs : ScheduleInv s) (a : Addr) (v : Cell) :
    ScheduleInv (s.hostWrite a v) := by
  obtain ⟨-, -, hsched, hram⟩ := s.hostWrite_results a v
  exact hs.congr (s.hostWrite_params a v) hsched hram

/-- Settles O53: INIT_SUBKEYS writes the fill; a build writes its mix with the key; MIX_KEY reads the stored fill back,
as the width is at most 64, and so writes what a build would; a reset leaves the schedule EMPTY. -/
theorem stepKeepsTheSchedule : Obligations.StepKeepsTheSchedule := fun _ _ hwf hs h =>
  step_rule_of_writes (P := fun s => s.params.wellFormed = true ∧ ScheduleInv s) (Q := ScheduleInv)
    (own := fun _ _ _ _ _ hs => hs)
    (idle := fun _ hs => hs.2)
    (status := fun _ _ hs => hs)
    (writes := fun _ _ hs hlegal => hs.2.writesOf hs.1 hlegal)
    (write := fun _ a v hs => hs.2.hostWrite a v)
    (reset := fun _ _ => .of_empty rfl)
    ⟨hwf, hs⟩ h

/-! ### The RAMs -/

/-- A RAM in canonical form with every index below `n` (R39 to R41). -/
def Memory.Fits (n : Nat) (m : Memory) : Prop := m.wf ∧ ∀ e ∈ m, e.1 < n

theorem ramInv_iff (s : State) :
    RamInv s ↔ s.keyRam.Fits s.params.kmax ∧ s.sRam.Fits s.params.smax ∧ s.msgRam.Fits s.params.mmax := Iff.rfl

theorem Memory.Fits.nil (n : Nat) : Memory.Fits n [] := ⟨.nil, nofun⟩

theorem Memory.Fits.write {n i : Nat} {m : Memory} (hm : m.Fits n) (hi : i < n) (v : Cell) : (m.write i v).Fits n := by
  refine ⟨Memory.wf_write hm.1 i v, fun e he => ?_⟩
  obtain rfl | he := Memory.mem_write he
  · exact hi
  · exact hm.2 e he

theorem Memory.Fits.writeWords {n : Nat} {m : Memory} (hm : m.Fits n) {ws : List Nat} (hws : ws.length ≤ n) :
    (m.writeFrom 0 (ws.map zext64)).Fits n := by
  refine ⟨Memory.wf_writeFrom _ hm.1 0, fun e he => ?_⟩
  obtain he | he := Memory.mem_writeFrom _ he
  · rw [List.length_map, Nat.zero_add] at he
    exact he.trans_le hws
  · exact hm.2 e he

theorem Memory.Fits.lose {n k : Nat} {m : Memory} (hm : m.Fits n) (hk : k ≤ n) (ram : RamId) (d : Nat) :
    (m.lose ram d k).Fits n := by
  refine ⟨Memory.wf_lose ram d k hm.1, fun e he => ?_⟩
  obtain he | he := Memory.mem_lose he
  · exact he.trans_le hk
  · exact hm.2 e he

/-- A target that is a cell of a RAM lies inside it. -/
def Target.InBounds (p : Params) : Target → Prop
  | .key i => i < p.kmax
  | .sub i => i < p.smax
  | .msg i => i < p.mmax
  | _ => True

theorem registerTarget_inBounds (p : Params) (n : Nat) : (registerTarget n).InBounds p := by
  unfold registerTarget
  split <;> trivial

/-- R64: the address map reaches no cell outside a RAM. -/
theorem targetOf_inBounds (p : Params) (a : Addr) : (targetOf p a).InBounds p := by
  unfold targetOf
  dsimp only
  split_ifs with _ _ hkey _ hsub _ hmsg
  · exact registerTarget_inBounds p _
  · exact hkey
  · trivial
  · exact hsub
  · trivial
  · trivial
  · exact hmsg
  · trivial

theorem RamInv.hostWrite {s : State} (hs : RamInv s) (a : Addr) (v : Cell) : RamInv (s.hostWrite a v) := by
  obtain ⟨-, -, h⟩ | ⟨-, h⟩ := s.hostWrite_cases a v <;> rw [h]
  · exact hs
  obtain ⟨hkey, hsub, hmsg⟩ := (ramInv_iff s).1 hs
  have hbound := targetOf_inBounds s.params a
  cases htarget : targetOf s.params a <;> rw [htarget] at hbound
  case key i => exact ⟨hkey.write hbound v, hsub, hmsg⟩
  case msg i => exact ⟨hkey, hsub, hmsg.write hbound v⟩
  all_goals exact hs

theorem State.lostSub_le (s : State) : s.lostSub ≤ s.params.smax := by
  unfold State.lostSub
  split
  · split
    · exact Nat.min_le_right ..
    · exact Nat.zero_le _
  · exact Nat.zero_le _

theorem State.lostMsg_le (s : State) : s.lostMsg ≤ s.params.mmax := by
  unfold State.lostMsg
  split
  · split
    · exact Nat.min_le_right ..
    · exact Nat.zero_le _
  · exact Nat.zero_le _

theorem RamInv.resetEvent {s : State} (hs : RamInv s) : RamInv s.resetEvent := by
  obtain ⟨hkey, hsub, hmsg⟩ := (ramInv_iff s).1 hs
  exact ⟨hkey, hsub.lose s.lostSub_le .sub s.draws, hmsg.lose s.lostMsg_le .msg s.draws⟩

theorem subkeyCount_le_smax {p : Params} {r : Nat} (h : r ≤ p.rmax) : subkeyCount r ≤ p.smax := by
  unfold subkeyCount Params.smax
  omega

theorem RamInv.writeSub {s : State} (hs : RamInv s) {ws : List Nat} (hws : ws.length ≤ s.params.smax) :
    RamInv (s.writeSub ws) :=
  let ⟨hkey, hsub, hmsg⟩ := hs
  ⟨hkey, Memory.Fits.writeWords hsub hws, hmsg⟩

theorem RamInv.writeMsg {s : State} (hs : RamInv s) {ws : List Nat} (hws : ws.length ≤ s.params.mmax) :
    RamInv (s.writeMsg ws) :=
  let ⟨hkey, hsub, hmsg⟩ := hs
  ⟨hkey, hsub, Memory.Fits.writeWords hmsg hws⟩

theorem RamInv.writeMagic {s : State} (hs : RamInv s) (w : Nat) : RamInv (s.writeMagic w) := hs

theorem RamInv.writeBlock {s : State} (hs : RamInv s) (ab : Nat × Nat) : RamInv (s.writeBlock ab) := hs

theorem RamInv.writeMix {s : State} (hs : RamInv s) {ws : List Nat} (st : SchedState)
    (hws : ws.length ≤ s.params.smax) : RamInv ((s.writeSub ws).writeSchedState st) := hs.writeSub hws

theorem RamInv.writeSchedule {s : State} (hs : RamInv s) (w r : Nat) {ws : List Nat} (st : SchedState)
    (hws : ws.length ≤ s.params.smax) : RamInv (s.writeSchedule w r ws st) := hs.writeSub hws

theorem RamInv.writeMessageResult {s : State} (hs : RamInv s) {out : List Nat} (hrounds : RoundsLegal s)
    (hout : out.length ≤ s.params.mmax) : RamInv (s.writeMessageResult out) :=
  (hs.writeMsg hout).writeSchedule _ _ _ (s.builtSub_length.trans_le (subkeyCount_le_smax hrounds))

theorem RamInv.writesOf {i : Instr} {s : State} (hsched : ScheduleInv s) (hs : RamInv s)
    (hlegal : OperandsLegal i s) : RamInv (writesOf i s) := by
  cases i
  case nop => exact hs
  case genMagic => exact hs.writeMagic _
  case encBlock | decBlock => exact hs.writeBlock _
  case initSubkeys =>
    obtain ⟨-, hrounds⟩ := hlegal
    exact hs.writeSchedule _ _ _ ((initialFill_length _ _).trans_le (subkeyCount_le_smax hrounds))
  case mixKey =>
    obtain ⟨hinit, -⟩ := hlegal
    obtain ⟨-, -, hrounds, -⟩ := hsched.1 (by simp [hinit])
    exact hs.writeMix _ (s.mixedSub_length.trans_le (subkeyCount_le_smax hrounds))
  case buildSchedule =>
    obtain ⟨-, hrounds, -⟩ := hlegal
    exact hs.writeSchedule _ _ _ (s.builtSub_length.trans_le (subkeyCount_le_smax hrounds))
  case encMsg | decMsg =>
    obtain ⟨-, hrounds, ⟨-, hmax⟩, -⟩ := hlegal
    exact hs.writeMessageResult hrounds (by simpa using hmax)

/-- Settles O51: every write goes to the first cells of a RAM, as many as the checks allow, or to a cell the address
map reaches; for MIX_KEY the bound on SCHED.SR is the schedule invariant's. -/
theorem stepKeepsTheRams : Obligations.StepKeepsTheRams := fun _ _ hsched hs h =>
  step_rule_of_writes (P := fun s => ScheduleInv s ∧ RamInv s) (Q := RamInv)
    (own := fun _ _ _ _ _ hs => hs)
    (idle := fun _ hs => hs.2)
    (status := fun _ _ hs => hs)
    (writes := fun _ _ hs hlegal => hs.2.writesOf hs.1 hlegal)
    (write := fun _ a v hs => hs.2.hostWrite a v)
    (reset := fun _ hs => hs.2.resetEvent)
    ⟨hsched, hs⟩ h

/-! ### Power-on -/

/-- Settles O54: at power-on the engine is idle, CFG is 0, the RAMs list nothing, and SCHED says EMPTY and invalid. -/
theorem powerOnHasTheInvariants : Obligations.PowerOnHasTheInvariants :=
  ⟨by decide, fun p => ⟨.of_idle rfl, fun i _ => by simp [State.powerOn],
    (ramInv_iff _).2 ⟨.nil _, .nil _, .nil _⟩, .of_invalid rfl, .of_empty rfl⟩⟩

/-! ### The sticky WOVR -/

/-- WOVR after a turn: a dropped write raises it, a reset or a write of bit 2 to STATUS clears it (R30). -/
def State.wovrAfter (s : State) : Turn → Bool
  | .engine => s.status.wovr
  | .read _ => s.status.wovr
  | .write a v =>
    (s.status.busy && droppedWhileBusy (targetOf s.params a)) ||
      (s.status.wovr && !(decide (targetOf s.params a = .status) && v.getLsbD 2))
  | .reset => false

theorem State.writeTarget_wovr (v : Cell) (s : State) (x : Target) :
    (s.writeTarget v x).status.wovr = (s.status.wovr && !(decide (x = .status) && v.getLsbD 2)) := by
  cases x <;> simp [State.writeTarget]

theorem State.hostWrite_wovr (a : Addr) (v : Cell) (s : State) :
    (s.hostWrite a v).status.wovr = s.wovrAfter (.write a v) := by
  obtain ⟨hbusy, hdropped, h⟩ | ⟨hnot, h⟩ := s.hostWrite_cases a v <;> rw [h]
  · simp [State.wovrAfter, hbusy, hdropped]
  · rw [State.writeTarget_wovr, State.wovrAfter, hnot, Bool.false_or]

theorem completion_wovr {s t : State} (h : completion s = .next t) : t.status.wovr = s.status.wovr := by
  obtain ⟨u, e, rfl, ⟨-, -, -, hstatus, -⟩, -⟩ := completion_form h
  rw [State.complete_status, Status.finish_wovr, hstatus]

theorem engineTurn_wovr {s t : State} (h : engineTurn s = .next t) : t.status.wovr = s.status.wovr := by
  obtain ⟨-, hc⟩ | ⟨-, rfl⟩ := engineTurn_cases h
  · exact completion_wovr hc
  · rfl

theorem step_wovr {s t : State} (h : step s = .next t) :
    t.status.wovr = s.wovrAfter (s.turns.headD .engine) := by
  cases hturns : s.turns with
  | nil =>
    rw [step_of_turns_nil hturns] at h
    exact (engineTurn_wovr h :)
  | cons turn rest =>
    rw [step_of_turns_cons hturns] at h
    cases turn with
    | engine => exact (engineTurn_wovr h :)
    | read a =>
      cases h
      obtain ⟨_, _, hread⟩ := State.hostRead_form a { s with turns := rest }
      rw [hread]
      rfl
    | write a v => cases h; exact State.hostWrite_wovr ..
    | reset => cases h; rfl

theorem State.wovrAfter_rises {s : State} {turn : Turn} (hlow : s.status.wovr = false)
    (h : s.wovrAfter turn = true) :
    s.status.busy = true ∧ ∃ a v, turn = .write a v ∧ droppedWhileBusy (targetOf s.params a) = true := by
  cases turn with
  | engine | read | reset => simp [State.wovrAfter, hlow] at h
  | write a v =>
    obtain ⟨hbusy, hdropped⟩ : s.status.busy = true ∧ droppedWhileBusy (targetOf s.params a) = true := by
      simpa [State.wovrAfter, hlow] using h
    exact ⟨hbusy, a, v, rfl, hdropped⟩

theorem State.wovrAfter_falls {s : State} {turn : Turn} (hhigh : s.status.wovr = true)
    (h : s.wovrAfter turn = false) :
    turn = .reset ∨ ∃ a v, turn = .write a v ∧ targetOf s.params a = .status ∧ v.getLsbD 2 = true := by
  cases turn with
  | engine | read => simp [State.wovrAfter, hhigh] at h
  | reset => exact .inl rfl
  | write a v =>
    simp only [State.wovrAfter, hhigh, Bool.true_and, Bool.or_eq_false_iff, Bool.not_eq_false', Bool.and_eq_true,
      decide_eq_true_eq] at h
    exact .inr ⟨a, v, rfl, h.2⟩

/-- The next turn is listed first when it is not the engine's. -/
theorem State.turns_eq_cons {s : State} {turn : Turn} (h : s.turns.headD .engine = turn) (hne : turn ≠ .engine) :
    ∃ rest, s.turns = turn :: rest := by
  cases hturns : s.turns with
  | nil => exact absurd (by rw [← h, hturns]; rfl) hne
  | cons x rest => exact ⟨rest, by rw [← h, hturns]; rfl⟩

/-- Settles O15, from what each kind of turn leaves in WOVR. -/
theorem wovrIsSticky : Obligations.WovrIsSticky := by
  intro s t h
  rw [step_wovr h]
  refine ⟨fun hlow hrise => ?_, fun hhigh hfall => ?_, fun a v rest hturns hbusy hdropped => ?_, ?_,
    fun a v rest hturns htarget hbit => ?_⟩
  · obtain ⟨hbusy, a, v, hturn, hdropped⟩ := State.wovrAfter_rises hlow hrise
    obtain ⟨rest, hturns⟩ := State.turns_eq_cons hturn nofun
    exact ⟨hbusy, a, v, rest, hturns, hdropped⟩
  · obtain hturn | ⟨a, v, hturn, htarget, hbit⟩ := State.wovrAfter_falls hhigh hfall
    · exact .inl (State.turns_eq_cons hturn nofun)
    · obtain ⟨rest, hturns⟩ := State.turns_eq_cons hturn nofun
      exact .inr ⟨a, v, rest, hturns, htarget, hbit⟩
  · simp [hturns, State.wovrAfter, hbusy, hdropped]
  · rintro ⟨rest, hturns⟩
    simp [hturns, State.wovrAfter]
  · simp [hturns, State.wovrAfter, htarget, hbit, droppedWhileBusy]

/-! ### The layout of the registers

A register word is its fields appended, so a field is read by dropping the fields below it and then those above it.
The outermost append is a `Cell`, of width 64 by computation only: the lemmas are given its two widths by name. -/

theorem getLsbD_append_high {v w i : Nat} {hi : BitVec v} {lo : BitVec w} (h : w ≤ i) :
    (hi ++ lo).getLsbD i = hi.getLsbD (i - w) := by
  rw [BitVec.getLsbD_append, if_neg (Nat.not_lt.2 h)]

theorem getLsbD_append_low {v w i : Nat} {hi : BitVec v} {lo : BitVec w} (h : i < w) :
    (hi ++ lo).getLsbD i = lo.getLsbD i := by
  rw [BitVec.getLsbD_append, if_pos h]

theorem getLsbD_ofBool_zero (b : Bool) : (BitVec.ofBool b).getLsbD 0 = b := by simp

theorem ctrlWord_fields (b : Bool) :
    let c : Cell := 0#63 ++ BitVec.ofBool b
    c.getLsbD 0 = b ∧ c.extractLsb' 1 63 = 0#63 :=
  ⟨(getLsbD_append_low (by decide)).trans (getLsbD_ofBool_zero b), BitVec.extractLsb'_append_eq_left⟩

theorem paramsWord_fields (p : Params) :
    let x := paramsWord p
    x.extractLsb' 0 7 = BitVec.ofNat 7 p.wmax ∧ x.getLsbD 7 = false ∧ x.extractLsb' 8 8 = BitVec.ofNat 8 p.rmax ∧
      x.extractLsb' 16 16 = BitVec.ofNat 16 p.kmax ∧ x.extractLsb' 32 16 = BitVec.ofNat 16 p.mmax ∧
      x.extractLsb' 48 16 = 0#16 := by
  unfold paramsWord
  simp (disch := decide) only [@BitVec.extractLsb'_append_eq_of_le 57 7,
    @BitVec.extractLsb'_append_eq_of_add_le 57 7, @getLsbD_append_high 57 7, BitVec.extractLsb'_append_eq_of_le,
    BitVec.extractLsb'_append_eq_of_add_le, getLsbD_append_low, BitVec.extractLsb'_eq_self, BitVec.getLsbD_zero,
    Nat.reduceSub, -Nat.reduceAdd, and_self]

theorem statusWord_fields (s : State) :
    let x := s.statusWord
    x.getLsbD 0 = s.status.busy ∧ x.getLsbD 1 = s.status.done ∧ x.getLsbD 2 = s.status.wovr ∧
      x.getLsbD 3 = (s.status.done && s.ie) ∧ x.extractLsb' 4 4 = 0#4 ∧ x.extractLsb' 8 8 = codeOf s.status.err ∧
      x.extractLsb' 16 8 = s.status.lastop ∧ x.extractLsb' 24 40 = 0#40 := by
  unfold State.statusWord State.irq
  simp (disch := decide) only [@BitVec.extractLsb'_append_eq_of_le 63 1, @getLsbD_append_high 63 1,
    @getLsbD_append_low 63 1, BitVec.extractLsb'_append_eq_of_le, BitVec.extractLsb'_append_eq_of_add_le,
    getLsbD_append_high, getLsbD_append_low, BitVec.extractLsb'_eq_self, getLsbD_ofBool_zero,
    Nat.reduceSub, -Nat.reduceAdd, and_self]

theorem schedWord_fields (d : Sched) :
    let x := schedWord d
    x.extractLsb' 0 2 = schedStateCode d.state ∧ x.getLsbD 2 = d.mvalid ∧ x.extractLsb' 3 5 = 0#5 ∧
      x.extractLsb' 8 7 = d.mw ∧ x.getLsbD 15 = false ∧ x.extractLsb' 16 7 = d.sw ∧ x.getLsbD 23 = false ∧
      x.extractLsb' 24 8 = d.sr ∧ x.extractLsb' 32 32 = 0#32 := by
  unfold schedWord
  simp (disch := decide) only [@BitVec.extractLsb'_append_eq_of_le 62 2,
    @BitVec.extractLsb'_append_eq_of_add_le 62 2, @getLsbD_append_high 62 2, BitVec.extractLsb'_append_eq_of_le,
    BitVec.extractLsb'_append_eq_of_add_le, getLsbD_append_high, getLsbD_append_low, BitVec.extractLsb'_eq_self,
    getLsbD_ofBool_zero, BitVec.getLsbD_zero, Nat.reduceSub, -Nat.reduceAdd, and_self]

/-- R84: the operands are fields of the captured CFG. -/
theorem State.operands_eq (s : State) :
    s.snapW = s.snap.toNat % 2 ^ 7 ∧ s.snapR = s.snap.toNat / 2 ^ 8 % 2 ^ 8 ∧
      s.snapC = s.snap.toNat / 2 ^ 16 % 2 ^ 16 ∧ s.snapM = s.snap.toNat / 2 ^ 32 % 2 ^ 16 := by
  simp [State.snapW, State.snapR, State.snapC, State.snapM, cfgWidth, cfgRounds, cfgKlen, cfgMlen,
    Nat.shiftRight_eq_div_pow]

/-- Settles O11, register by register; legal parameters fit the fields of PARAMS. -/
theorem registerFieldsReadAsLaidOut : Obligations.RegisterFieldsReadAsLaidOut := by
  intro s hwf
  obtain ⟨-, hwmax, hrmax, -, hkmax, -, hmmax⟩ := (paramsWellFormed_iff s.params).1 hwf
  obtain ⟨hw, hbit, hr, hk, hm, hres⟩ := paramsWord_fields s.params
  obtain ⟨hsnapW, hsnapR, hsnapC, hsnapM⟩ := s.operands_eq
  refine ⟨rfl, ⟨?_, hbit, ?_, ?_, ?_, hres⟩, ctrlWord_fields s.ie, statusWord_fields s, schedWord_fields s.sched,
    rfl, rfl, rfl, rfl, hsnapW, hsnapR, hsnapC, hsnapM, rfl, rfl⟩
  · exact (congrArg BitVec.toNat hw).trans (Nat.mod_eq_of_lt (by omega))
  · exact (congrArg BitVec.toNat hr).trans (Nat.mod_eq_of_lt (by omega))
  · exact (congrArg BitVec.toNat hk).trans (Nat.mod_eq_of_lt (by omega))
  · exact (congrArg BitVec.toNat hm).trans (Nat.mod_eq_of_lt (by omega))

end Sys2Proof.Machine
end

section
/-! PROOFS of 20_memory.md. The address map region by region (R63, R64), the rules of a host read (R65, R69) and of a
host write that is dropped or takes effect (R62, R68), and the obligations about the host's accesses. -/

namespace Sys2Proof.Machine

open Sys2Proof

/-! ### The address map -/

/-- R61, R63: the register at byte address `8*n` answers at that address and the seven after it. -/
theorem targetOf_of_slot {p : Params} {a : Addr} (n : Nat) (h : a.toNat / 8 * 8 = 8 * n) (hn : n ≤ 10 := by decide) :
    targetOf p a = registerTarget n := by
  have hslot : a.toNat / 8 = n := by omega
  unfold targetOf
  rw [if_pos (by omega), hslot]

theorem registerTarget_eq_reserved {n : Nat} (h : 11 ≤ n) : registerTarget n = .reserved := by
  obtain ⟨k, rfl⟩ := Nat.exists_eq_add_of_le' h
  rfl

theorem targetOf_above_registers {p : Params} {a : Addr} (hlo : 0x58 ≤ a.toNat) (hhi : a.toNat ≤ 0x0FFFF) :
    targetOf p a = .reserved := by
  unfold targetOf
  rw [if_pos (by omega), registerTarget_eq_reserved (by omega)]

theorem targetOf_key_region {p : Params} {a : Addr} (hlo : 0x10000 ≤ a.toNat) (hhi : a.toNat ≤ 0x1FFFF) :
    targetOf p a =
      if (a.toNat - 0x10000) / 8 < p.kmax then .key ((a.toNat - 0x10000) / 8) else .reserved := by
  unfold targetOf
  rw [if_neg (by omega), if_pos (by omega)]

theorem targetOf_sub_region {p : Params} {a : Addr} (hlo : 0x20000 ≤ a.toNat) (hhi : a.toNat ≤ 0x2FFFF) :
    targetOf p a =
      if (a.toNat - 0x20000) / 8 < p.smax then .sub ((a.toNat - 0x20000) / 8) else .reserved := by
  unfold targetOf
  rw [if_neg (by omega), if_neg (by omega), if_pos (by omega)]

theorem targetOf_gap {p : Params} {a : Addr} (hlo : 0x30000 ≤ a.toNat) (hhi : a.toNat ≤ 0x3FFFF) :
    targetOf p a = .reserved := by
  unfold targetOf
  rw [if_neg (by omega), if_neg (by omega), if_neg (by omega), if_pos (by omega)]

theorem targetOf_msg_region {p : Params} {a : Addr} (hlo : 0x40000 ≤ a.toNat) :
    targetOf p a =
      if (a.toNat - 0x40000) / 8 < p.mmax then .msg ((a.toNat - 0x40000) / 8) else .reserved := by
  unfold targetOf
  rw [if_neg (by omega), if_neg (by omega), if_neg (by omega), if_neg (by omega)]

/-- Settles O10, region by region. -/
theorem addressMapIsTheTable : Obligations.AddressMapIsTheTable := fun _ _ =>
  ⟨targetOf_of_slot 0, targetOf_of_slot 1, targetOf_of_slot 2, targetOf_of_slot 3, targetOf_of_slot 4,
    targetOf_of_slot 5, targetOf_of_slot 6, targetOf_of_slot 7, targetOf_of_slot 8, targetOf_of_slot 9,
    targetOf_of_slot 10, targetOf_above_registers, targetOf_key_region, targetOf_sub_region, targetOf_gap,
    targetOf_msg_region⟩

/-! ### Host reads -/

theorem hiddenWhileBusy_iff (x : Target) :
    hiddenWhileBusy x = true ↔
      x = .magicP ∨ x = .magicQ ∨ x = .sched ∨ x = .dataL ∨ x = .dataR ∨ (∃ k, x = .sub k) ∨ ∃ k, x = .msg k := by
  cases x <;> simp [hiddenWhileBusy]

/-- R69: a hidden read while busy returns the next free value. -/
theorem step_of_hidden_read {s : State} {a : Addr} {rest : List Turn} (hturns : s.turns = .read a :: rest)
    (hbusy : s.status.busy = true) (hhidden : hiddenWhileBusy (targetOf s.params a) = true) :
    step s = .next { s with
      turns := rest, readData := some (Config.busyRead s.draws), draws := s.draws + 1 } := by
  obtain ⟨-, -, h⟩ | ⟨h, -⟩ := State.hostRead_cases a { s with turns := rest }
  · rw [step_of_turns_cons hturns, takeTurn, h]
  · simp [hbusy, hhidden] at h

/-- R65, R70: every other read returns the value of its target. -/
theorem step_of_defined_read {s : State} {a : Addr} {rest : List Turn} (hturns : s.turns = .read a :: rest)
    (hdefined : s.status.busy = false ∨ hiddenWhileBusy (targetOf s.params a) = false) :
    step s = .next { s with turns := rest, readData := some (s.readTarget (targetOf s.params a)) } := by
  obtain ⟨hbusy, hhidden, -⟩ | ⟨-, h⟩ := State.hostRead_cases a { s with turns := rest }
  · obtain h | h := hdefined
    · exact absurd hbusy (Bool.eq_false_iff.1 h)
    · exact absurd hhidden (Bool.eq_false_iff.1 h)
  · rw [step_of_turns_cons hturns, takeTurn, h]
    rfl

/-- R24: CTRL reads as its one bit, zero-extended. -/
theorem readTarget_ctrl (s : State) : s.readTarget .ctrl = if s.ie then 1#64 else 0#64 := by
  unfold State.readTarget
  cases s.ie <;> rfl

/-- Settles O12: the two rules of a read, with the value of each target read off the table. -/
theorem readReturnsItsTargetOrAFreeValue : Obligations.ReadReturnsItsTargetOrAFreeValue := by
  intro s a rest hturns x hidden found
  have hfound : s.readTarget x = found := by
    unfold found
    cases x
    case ctrl => exact readTarget_ctrl s
    all_goals rfl
  refine ⟨fun hbusy hhidden => ?_, fun hdefined => ?_⟩
  · exact step_of_hidden_read hturns hbusy ((hiddenWhileBusy_iff x).2 hhidden)
  · rw [← hfound]
    refine step_of_defined_read hturns (hdefined.imp_right fun hnot => ?_)
    exact Bool.eq_false_iff.2 (mt (hiddenWhileBusy_iff x).1 hnot)

/-! ### Host writes -/

section hostWrites

variable {s : State} {a : Addr} {v : Cell} {rest : List Turn}

theorem droppedWhileBusy_iff (x : Target) :
    droppedWhileBusy x = true ↔
      x = .cfg ∨ x = .cmd ∨ x = .dataL ∨ x = .dataR ∨ (∃ k, x = .key k) ∨ ∃ k, x = .msg k := by
  cases x <;> simp [droppedWhileBusy]

/-- R68: a write the busy window drops sets WOVR alone. -/
theorem step_of_dropped_write (hturns : s.turns = .write a v :: rest) (hbusy : s.status.busy = true)
    (hdropped : droppedWhileBusy (targetOf s.params a) = true) :
    step s = .next { s with turns := rest, status := { s.status with wovr := true } } := by
  obtain ⟨-, -, h⟩ | ⟨h, -⟩ := State.hostWrite_cases a v { s with turns := rest }
  · rw [step_of_turns_cons hturns, takeTurn, h]
    rfl
  · simp [hbusy, hdropped] at h

/-- R62: every other write takes effect at its target. -/
theorem step_of_effective_write (hturns : s.turns = .write a v :: rest)
    (heffective : s.status.busy = false ∨ droppedWhileBusy (targetOf s.params a) = false) :
    step s = .next (State.writeTarget v { s with turns := rest } (targetOf s.params a)) := by
  obtain ⟨hbusy, hdropped, -⟩ | ⟨-, h⟩ := State.hostWrite_cases a v { s with turns := rest }
  · obtain h | h := heffective
    · exact absurd hbusy (Bool.eq_false_iff.1 h)
    · exact absurd hdropped (Bool.eq_false_iff.1 h)
  · rw [step_of_turns_cons hturns, takeTurn, h]

/-- R24: a write to CTRL takes effect, busy or idle. -/
theorem step_of_ctrl_write (hturns : s.turns = .write a v :: rest) (htarget : targetOf s.params a = .ctrl) :
    step s = .next { s with turns := rest, ie := v.getLsbD 0 } := by
  rw [step_of_effective_write hturns (.inr (by rw [htarget]; rfl)), htarget]
  rfl

theorem Status.hostWrite_eq (v : Cell) (st : Status) :
    st.hostWrite v = { st with
      done := if v.getLsbD 1 then false else st.done
      wovr := if v.getLsbD 2 then false else st.wovr } := by
  unfold Status.hostWrite
  cases v.getLsbD 1 <;> cases v.getLsbD 2 <;> simp

/-- R29, R30: a write to STATUS clears the bits written 1, busy or idle. -/
theorem step_of_status_write (hturns : s.turns = .write a v :: rest) (htarget : targetOf s.params a = .status) :
    step s = .next { s with
      turns := rest
      status := { s.status with
        done := if v.getLsbD 1 then false else s.status.done
        wovr := if v.getLsbD 2 then false else s.status.wovr } } := by
  rw [step_of_effective_write hturns (.inr (by rw [htarget]; rfl)), htarget, State.writeTarget, Status.hostWrite_eq]

/-- R65: a write to a read-only or reserved target is ignored, busy or idle. -/
theorem step_of_readOnly_write (hturns : s.turns = .write a v :: rest) {x : Target}
    (htarget : targetOf s.params a = x)
    (hx : x = .id ∨ x = .params ∨ x = .magicP ∨ x = .magicQ ∨ x = .sched ∨ (∃ k, x = .sub k) ∨ x = .reserved) :
    step s = .next { s with turns := rest } := by
  have hkept : droppedWhileBusy x = false ∧ ∀ u : State, u.writeTarget v x = u := by
    obtain rfl | rfl | rfl | rfl | rfl | ⟨k, rfl⟩ | rfl := hx <;> exact ⟨rfl, fun _ => rfl⟩
  obtain ⟨hdropped, hwrite⟩ := hkept
  rw [step_of_effective_write hturns (.inr (htarget ▸ hdropped)), htarget, hwrite]

end hostWrites

/-- Settles O13: the rule of a dropped write, and of those the busy window lets through. -/
theorem busyWindowDropsWrites : Obligations.BusyWindowDropsWrites := by
  intro s a v rest hturns x
  refine ⟨fun hbusy => ⟨fun hx => ?_, step_of_ctrl_write hturns, step_of_status_write hturns,
    step_of_readOnly_write hturns rfl⟩, fun hidle => step_of_effective_write hturns (.inl hidle)⟩
  exact step_of_dropped_write hturns hbusy ((droppedWhileBusy_iff x).2 hx)

/-- R25: the mask of CFG clears its reserved bits and keeps the others. -/
theorem getLsbD_and_cfgMask (v : Cell) (i : Nat) :
    (v &&& cfgMask).getLsbD i = if i = 7 ∨ 48 ≤ i then false else v.getLsbD i := by
  have hwritable : ∀ i < 48, i ≠ 7 → cfgMask.getLsbD i = true := by decide
  rw [BitVec.getLsbD_and]
  split_ifs with hi
  · rw [cfgMask_reserved hi, Bool.and_false]
  · rw [hwritable i (by omega) (by omega), Bool.and_true]

/-- A RAM write reads back at its index and leaves every other cell. -/
theorem Memory.cell_write_spec (ram : RamId) (m : Memory) (k : Nat) (v : Cell) :
    Memory.cell ram (m.write k v) k = v ∧ ∀ j, j ≠ k → Memory.cell ram (m.write k v) j = Memory.cell ram m j :=
  ⟨by rw [Memory.cell_write, if_pos rfl], fun j hj => by rw [Memory.cell_write, if_neg hj]⟩

/-- Settles O14: an idle write takes effect, and each target's effect is its row of the table. -/
theorem idleWriteReplacesItsTarget : Obligations.IdleWriteReplacesItsTarget := by
  intro s a v rest hturns hidle x
  have hstep : step s = .next (State.writeTarget v { s with turns := rest } x) :=
    step_of_effective_write hturns (.inl hidle)
  refine ⟨fun hx => ?_, step_of_ctrl_write hturns, step_of_status_write hturns, fun hx => ?_, fun hx => ?_,
    fun k hx => ?_, fun k hx => ?_, step_of_readOnly_write hturns rfl⟩ <;> rw [hx] at hstep
  · exact ⟨v &&& cfgMask, hstep, getLsbD_and_cfgMask v⟩
  · exact hstep
  · exact hstep
  · exact ⟨s.keyRam.write k v, hstep, Memory.cell_write_spec .key s.keyRam k v⟩
  · exact ⟨s.msgRam.write k v, hstep, Memory.cell_write_spec .msg s.msgRam k v⟩

end Sys2Proof.Machine
end

section
/-! PROOFS of 30_encoding.md. The decoder and the encoder of command words (R80, R82, R85, R86), and the frame of every
command: what lies outside its row of the operand table (R83). -/

namespace Sys2Proof.Machine

open Sys2Proof

/-! ### The opcode map -/

@[simp] theorem commandOfOpcode_opcodeOf (i : Instr) : commandOfOpcode (opcodeOf i) = .ok i := by
  cases i <;> rfl

/-- R82: no two opcodes select the same command. -/
theorem opcodeOf_eq_of_commandOfOpcode {o : BitVec 8} {i : Instr} (h : commandOfOpcode o = .ok i) :
    opcodeOf i = o := by
  refine BitVec.eq_of_toNat_eq ?_
  unfold commandOfOpcode at h
  split at h <;> cases h <;> exact Eq.symm ‹_›

theorem commandOfOpcode_of_undefined {o : BitVec 8} (h : 9 ≤ o.toNat) :
    commandOfOpcode o = .error .undefinedOpcode := by
  unfold commandOfOpcode
  split
  case h_10 => rfl
  all_goals omega

/-! ### The two fields of a command word -/

/-- R80: RES and OPC are the whole of a command word. -/
theorem commandReserved_append_commandOpcode (v : Cell) : commandReserved v ++ commandOpcode v = v :=
  BitVec.extractLsb'_append_extractLsb'

theorem encode_fields (i : Instr) : Laws.CommandWord.Statement i := by
  cases i
  case nop => exact Laws.CommandWord.nop
  case genMagic => exact Laws.CommandWord.genMagic
  case initSubkeys => exact Laws.CommandWord.initSubkeys
  case mixKey => exact Laws.CommandWord.mixKey
  case buildSchedule => exact Laws.CommandWord.buildSchedule
  case encBlock => exact Laws.CommandWord.encBlock
  case decBlock => exact Laws.CommandWord.decBlock
  case encMsg => exact Laws.CommandWord.encMsg
  case decMsg => exact Laws.CommandWord.decMsg

theorem encode_wellFormed (i : Instr) : commandWordWellFormed (encode i) = true := by
  obtain ⟨hreserved, hopcode, hlt⟩ := encode_fields i
  simp [commandWordWellFormed, hreserved, hopcode, hlt]

/-! ### Decoding -/

theorem decode_of_reserved_ne {v : Cell} (h : commandReserved v ≠ 0#56) : decode v = .error .reservedBits := if_neg h

theorem decode_of_reserved_eq {v : Cell} (h : commandReserved v = 0#56) :
    decode v = commandOfOpcode (commandOpcode v) := if_pos h

theorem decode_encode (i : Instr) : decode (encode i) = .ok i := by
  obtain ⟨hreserved, hopcode, -⟩ := encode_fields i
  rw [decode_of_reserved_eq hreserved, hopcode, commandOfOpcode_opcodeOf]

theorem eq_encode_of_decode {v : Cell} {i : Instr} (h : decode v = .ok i) : v = encode i := by
  by_cases hreserved : commandReserved v = 0#56
  case neg => simp [decode_of_reserved_ne hreserved] at h
  case pos =>
    rw [decode_of_reserved_eq hreserved] at h
    rw [encode, opcodeOf_eq_of_commandOfOpcode h, ← hreserved, commandReserved_append_commandOpcode]

/-- Settles O1: a word decodes by its RES field, then by its opcode; the nine words of the map are the encodings. -/
theorem opcodeMapDecodes : Obligations.OpcodeMapDecodes :=
  ⟨fun _ => decode_of_reserved_ne,
    fun _ hreserved hopcode => (decode_of_reserved_eq hreserved).trans (commandOfOpcode_of_undefined hopcode),
    decode_encode .nop, decode_encode .genMagic, decode_encode .initSubkeys, decode_encode .mixKey,
    decode_encode .buildSchedule, decode_encode .encBlock, decode_encode .decBlock, decode_encode .encMsg,
    decode_encode .decMsg⟩

/-- Settles O2: a word that decodes has RES = 0 and the command's own opcode, and the two fields are the whole word. -/
theorem decodeInvertsEncode : Obligations.DecodeInvertsEncode := fun i _ =>
  ⟨encode_wellFormed i, fun _ => ⟨eq_encode_of_decode, fun h => h ▸ decode_encode i⟩⟩

/-! ### The frame of a command

A completed command has changed STATUS alone, or STATUS after its writes, so a property that STATUS does not matter to
holds after it if it holds before and the writes establish it. -/

/-- The frame rule of a command. -/
theorem exec_rule {P : State → Prop} {i : Instr} {s t : State} (h : exec i s = .next t)
    (status : ∀ u e, P u → P (u.complete e)) (before : P s) (writes : P (writesOf i s)) : P t := by
  obtain ⟨e, -, rfl⟩ | ⟨-, rfl⟩ := exec_cases h
  · exact status s e before
  · exact status _ .ok writes

theorem SameShell.refl (s : State) : SameShell s s := ⟨rfl, rfl, rfl, rfl, rfl, rfl, rfl, rfl, rfl, rfl, rfl⟩

theorem SameOutsideEngine.of_sameShell {s u : State} (h : SameShell s u) : SameOutsideEngine s u := by
  obtain ⟨hparams, hie, hcfg, -, hkey, hrest⟩ := h
  exact ⟨hparams, hie, hcfg, State.keyCell_congr hkey, hrest⟩

theorem exec_sameOutsideEngine {i : Instr} {s t : State} (h : exec i s = .next t) : SameOutsideEngine s t :=
  exec_rule h (fun _ _ hu => hu) (.of_sameShell (.refl s)) (.of_sameShell (writesOf_shell i s))

/-- R176: BUSY, DONE and ERR take their completed values, WOVR and LASTOP stay. -/
theorem exec_status {i : Instr} {s t : State} (h : exec i s = .next t) :
    t.status = completedStatus t.status.err s.status := by
  obtain ⟨-, -, -, hstatus, -⟩ := writesOf_shell i s
  obtain ⟨e, -, rfl⟩ | ⟨-, rfl⟩ := exec_cases h
  · rfl
  · rw [State.complete_status, hstatus]
    rfl

section writesOutsideTheRow

variable {i : Instr} (s : State)

theorem writesOf_sameMagic (hi : i = .nop ∨ i = .mixKey ∨ i = .encBlock ∨ i = .decBlock) :
    SameMagic s (writesOf i s) := by
  obtain rfl | rfl | rfl | rfl := hi <;> exact ⟨rfl, rfl, rfl, rfl⟩

theorem writesOf_sameSched (hi : i = .nop ∨ i = .genMagic ∨ i = .encBlock ∨ i = .decBlock) :
    SchedIs s.sched.state s.schedW s.schedR (writesOf i s) := by
  obtain rfl | rfl | rfl | rfl := hi <;> exact ⟨rfl, rfl, rfl⟩

theorem writesOf_sameBlock (henc : i ≠ .encBlock) (hdec : i ≠ .decBlock) : SameBlock s (writesOf i s) := by
  cases i
  case encBlock => exact absurd rfl henc
  case decBlock => exact absurd rfl hdec
  all_goals simp [SameBlock, writesOf]

/-- A command writes as many S cells as its operands say, from the first on. -/
theorem writesOf_sameSubFrom (i : Instr) : SameSubFrom (s.subCellsOf i) s (writesOf i s) := by
  intro k hk
  cases i
  case nop | genMagic | encBlock | decBlock => rfl
  case initSubkeys =>
    exact (State.writeSchedule_subCell ..).trans (if_neg (Nat.not_lt.2 ((initialFill_length ..).trans_le hk)))
  case mixKey => exact (State.writeSub_subCell ..).trans (if_neg (Nat.not_lt.2 (s.mixedSub_length.trans_le hk)))
  case buildSchedule =>
    exact (State.writeSchedule_subCell ..).trans (if_neg (Nat.not_lt.2 (s.builtSub_length.trans_le hk)))
  case encMsg | decMsg =>
    exact (State.writeMessageResult_subCell ..).trans (if_neg (Nat.not_lt.2 (s.builtSub_length.trans_le hk)))

/-- A command writes as many MSG cells as its operands say, from the first on. -/
theorem writesOf_sameMsgFrom (i : Instr) : SameMsgFrom (s.msgCellsOf i) s (writesOf i s) := by
  intro k hk
  cases i
  case encMsg | decMsg =>
    exact (State.writeMessageResult_msgCell ..).trans (if_neg (Nat.not_lt.2 (by simpa [State.msgCellsOf] using hk)))
  all_goals rfl

end writesOutsideTheRow

section execOutsideTheRow

variable {i : Instr} {s t : State} (h : exec i s = .next t)

include h

theorem exec_sameMagic (hi : i = .nop ∨ i = .mixKey ∨ i = .encBlock ∨ i = .decBlock) : SameMagic s t :=
  exec_rule h (fun _ _ hu => hu) ⟨rfl, rfl, rfl, rfl⟩ (writesOf_sameMagic s hi)

theorem exec_sameSched (hi : i = .nop ∨ i = .genMagic ∨ i = .encBlock ∨ i = .decBlock) :
    SchedIs s.sched.state s.schedW s.schedR t :=
  exec_rule h (fun _ _ hu => hu) ⟨rfl, rfl, rfl⟩ (writesOf_sameSched s hi)

theorem exec_sameBlock (henc : i ≠ .encBlock) (hdec : i ≠ .decBlock) : SameBlock s t :=
  exec_rule h (fun _ _ hu => hu) ⟨rfl, rfl⟩ (writesOf_sameBlock s henc hdec)

theorem exec_sameSubFrom : SameSubFrom (s.subCellsOf i) s t :=
  exec_rule h (fun _ _ hu => hu) (fun _ _ => rfl) (writesOf_sameSubFrom s i)

theorem exec_sameMsgFrom : SameMsgFrom (s.msgCellsOf i) s t :=
  exec_rule h (fun _ _ hu => hu) (fun _ _ => rfl) (writesOf_sameMsgFrom s i)

end execOutsideTheRow

/-- MIX_KEY writes SCHED.STATE alone of the schedule registers (R121). -/
theorem execMixKey_sameSchedOperands {s t : State} (h : exec .mixKey s = .next t) :
    t.schedW = s.schedW ∧ t.schedR = s.schedR :=
  exec_rule (P := fun u => u.schedW = s.schedW ∧ u.schedR = s.schedR) h (fun _ _ hu => hu) ⟨rfl, rfl⟩ ⟨rfl, rfl⟩

theorem State.msgCellsOf_eq_zero (s : State) {i : Instr} (henc : i ≠ .encMsg) (hdec : i ≠ .decMsg) :
    s.msgCellsOf i = 0 := by
  cases i
  case encMsg => exact absurd rfl henc
  case decMsg => exact absurd rfl hdec
  all_goals rfl

/-- Settles O49: the frame of the writes, row by row; the RAM clauses are the counts of cells of each row. -/
theorem eachCommandWritesOnlyItsRow : Obligations.EachCommandWritesOnlyItsRow := by
  intro i s t h
  have hsub := exec_sameSubFrom h
  have hmsg := exec_sameMsgFrom h
  refine ⟨exec_sameOutsideEngine h, exec_status h, exec_sameMagic h, fun hi => ⟨exec_sameSched h hi, ?_⟩, ?_,
    fun hi => ?_, exec_sameBlock h, fun henc hdec => ?_, fun hi => ?_⟩
  · obtain rfl | rfl | rfl | rfl := hi <;> exact hsub
  · rintro rfl
    obtain ⟨hwidth, hrounds⟩ := execMixKey_sameSchedOperands h
    exact ⟨hwidth, hrounds, hsub⟩
  · obtain rfl | rfl | rfl | rfl := hi <;> exact hsub
  · rwa [s.msgCellsOf_eq_zero henc hdec] at hmsg
  · obtain rfl | rfl := hi <;> exact hmsg

end Sys2Proof.Machine
end

section
/-! PROOFS of 40_constant_generator.md. The magic pair from the real numbers behind it (R104 to R106): the model's
64-bit constants are exact floors, a narrower floor is a wider one shifted down, and the adjustment to odd never leaves
the range of a word. Then GEN_MAGIC (R108). -/

namespace Sys2Proof.Machine

open Sys2Proof

/-! ### Exact floors -/

/-- `floor((e - 2) * 2^64)`, from Mathlib's twenty digits of `e`. -/
theorem floor_exp_mul_two_pow_64 : ⌊(Real.exp 1 - 2) * 2 ^ 64⌋ = (expFloor64 : Int) := by
  obtain ⟨hupper, hlower⟩ := abs_sub_le_iff.1 Real.exp_one_near_20
  refine Int.floor_eq_iff.2 ⟨?_, ?_⟩ <;> norm_num [expFloor64] at hupper hlower ⊢ <;> linarith

/-- `floor((φ - 2) * 2^64)`, by squaring the bounds of `√5`. -/
theorem floor_golden_mul_two_pow_64 : ⌊((1 + Real.sqrt 5) / 2 - 2) * 2 ^ 64⌋ = goldenFloor64 := by
  have hlower : 3 - 7046029254386353131 / 2 ^ 63 ≤ Real.sqrt 5 := Real.le_sqrt_of_sq_le (by norm_num)
  have hupper : Real.sqrt 5 < 3 - 7046029254386353130 / 2 ^ 63 := (Real.sqrt_lt' (by norm_num)).2 (by norm_num)
  refine Int.floor_eq_iff.2 ⟨?_, ?_⟩ <;> norm_num [goldenFloor64] at hlower hupper ⊢ <;> linarith

/-- A narrower floor is a wider one, shifted down. -/
theorem floor_mul_two_pow_of_le (x : ℝ) {w n : Nat} (h : w ≤ n) :
    ⌊x * 2 ^ w⌋ = ⌊x * 2 ^ n⌋ / 2 ^ (n - w) := by
  have hcancel := Int.mul_natCast_floor_div_cancel (Nat.two_pow_pos (n - w)).ne' (x * 2 ^ w)
  push_cast at hcancel
  rw [← hcancel, mul_assoc, pow_mul_pow_sub _ h]

theorem floor_exp_mul_two_pow {w : Nat} (h : w ≤ 64) : ⌊(Real.exp 1 - 2) * 2 ^ w⌋ = magicXp w := by
  rw [floor_mul_two_pow_of_le _ h, floor_exp_mul_two_pow_64, magicXp]

theorem floor_golden_mul_two_pow {w : Nat} (h : w ≤ 64) : ⌊((1 + Real.sqrt 5) / 2 - 2) * 2 ^ w⌋ = magicXq w := by
  rw [floor_mul_two_pow_of_le _ h, floor_golden_mul_two_pow_64, magicXq]

/-- The floor of R106 is that of R105 plus `2^w`. -/
theorem floor_golden_sub_one_mul_two_pow {w : Nat} (h : w ≤ 64) :
    ⌊((1 + Real.sqrt 5) / 2 - 1) * 2 ^ w⌋ = magicXq w + 2 ^ w := by
  have hshift : ((1 + Real.sqrt 5) / 2 - 1) * 2 ^ w = ((1 + Real.sqrt 5) / 2 - 2) * 2 ^ w + (2 ^ w : Int) := by
    push_cast; ring
  rw [hshift, Int.floor_add_intCast, floor_golden_mul_two_pow h]

/-! ### Ranges of the floors -/

section ranges

variable {w : Nat}

theorem two_pow_sub_le (hpos : 1 ≤ w) : (2 : Int) ^ (64 - w) ≤ 2 ^ 63 :=
  pow_le_pow_right₀ (by decide) (by omega)

theorem two_pow_mul_two_pow_sub (hle : w ≤ 64) : (2 : Int) ^ w * 2 ^ (64 - w) = 2 ^ 64 := pow_mul_pow_sub 2 hle

theorem magicXp_pos (hpos : 1 ≤ w) : 0 < magicXp w := by
  have h := two_pow_sub_le hpos
  refine (Int.le_ediv_iff_mul_le (by positivity)).2 ?_
  norm_num [expFloor64] at h ⊢
  omega

theorem magicXp_lt (hle : w ≤ 64) : magicXp w < 2 ^ w := by
  refine (Int.ediv_lt_iff_lt_mul (by positivity)).2 ?_
  rw [two_pow_mul_two_pow_sub hle]
  decide

theorem magicXq_neg (w : Nat) : magicXq w < 0 := Int.ediv_neg_of_neg_of_pos (by decide) (by positivity)

theorem neg_two_pow_lt_magicXq (hpos : 1 ≤ w) (hle : w ≤ 64) : -2 ^ w < magicXq w := by
  have h := two_pow_sub_le hpos
  refine (Int.le_ediv_iff_mul_le (by positivity)).2 ?_
  rw [add_mul, neg_mul, two_pow_mul_two_pow_sub hle]
  norm_num [goldenFloor64] at h ⊢
  omega

end ranges

/-! ### The adjustments to odd -/

theorem two_pow_emod_two {w : Nat} (hpos : 1 ≤ w) : (2 : Int) ^ w % 2 = 0 :=
  Int.emod_eq_zero_of_dvd (dvd_pow_self 2 (by omega))

theorem oddAdjust_emod_two (x : Int) : oddAdjust x % 2 = 1 := by
  unfold oddAdjust; omega

theorem oddAdjustDown_emod_two (x : Int) : oddAdjustDown x % 2 = 1 := by
  unfold oddAdjustDown; omega

theorem oddAdjust_eq_ite (x : Int) : oddAdjust x = if x % 2 = 1 then x else x + 1 := by
  unfold oddAdjust; split <;> omega

theorem oddAdjustDown_eq_ite (x : Int) : oddAdjustDown x = if x % 2 = 1 then x else x - 1 := by
  unfold oddAdjustDown; split <;> omega

theorem oddAdjustDown_add_of_even (x : Int) {y : Int} (hy : y % 2 = 0) :
    oddAdjustDown (x + y) = oddAdjustDown x + y := by
  unfold oddAdjustDown; omega

/-- An even bound cannot be reached by rounding up to odd. -/
theorem oddAdjust_lt_of_even {x y : Int} (hy : y % 2 = 0) (h : x < y) : oddAdjust x < y := by
  unfold oddAdjust; omega

/-- An even bound cannot be reached by rounding down to odd. -/
theorem lt_oddAdjustDown_of_even {x y : Int} (hy : y % 2 = 0) (h : y < x) : y < oddAdjustDown x := by
  unfold oddAdjustDown; omega

theorem le_oddAdjust (x : Int) : x ≤ oddAdjust x := by
  unfold oddAdjust; omega

theorem oddAdjustDown_le (x : Int) : oddAdjustDown x ≤ x := by
  unfold oddAdjustDown; omega

/-! ### The magic pair -/

theorem natCast_magicP (w : Nat) : (magicP w : Int) = oddAdjust (magicXp w) % 2 ^ w :=
  Int.toNat_of_nonneg (Int.emod_nonneg _ (by positivity))

theorem natCast_magicQ (w : Nat) : (magicQ w : Int) = oddAdjustDown (magicXq w) % 2 ^ w :=
  Int.toNat_of_nonneg (Int.emod_nonneg _ (by positivity))

section pair

variable {w : Nat} (hpos : 1 ≤ w) (hle : w ≤ 64)

include hpos hle

theorem neg_two_pow_lt_oddAdjustDown_magicXq : -2 ^ w < oddAdjustDown (magicXq w) :=
  lt_oddAdjustDown_of_even (by rw [Int.neg_emod_two, two_pow_emod_two hpos]) (neg_two_pow_lt_magicXq hpos hle)

/-- The reduction modulo `2^w` does not change `P_w` (R104). -/
theorem natCast_magicP_eq_oddAdjust : (magicP w : Int) = oddAdjust (magicXp w) := by
  have hnonneg : 0 ≤ oddAdjust (magicXp w) := (magicXp_pos hpos).le.trans (le_oddAdjust _)
  have hlt : oddAdjust (magicXp w) < 2 ^ w := oddAdjust_lt_of_even (two_pow_emod_two hpos) (magicXp_lt hle)
  rw [natCast_magicP, Int.emod_eq_of_lt hnonneg hlt]

/-- The reduction modulo `2^w` adds `2^w` once (R105). -/
theorem natCast_magicQ_eq_oddAdjustDown_add : (magicQ w : Int) = oddAdjustDown (magicXq w) + 2 ^ w := by
  have hneg : oddAdjustDown (magicXq w) < 0 := (oddAdjustDown_le _).trans_lt (magicXq_neg w)
  have hlower := neg_two_pow_lt_oddAdjustDown_magicXq hpos hle
  rw [natCast_magicQ, ← Int.add_emod_right, Int.emod_eq_of_lt (by omega) (by omega)]

/-- `Q_w` as the downward adjustment of the floor of R106. -/
theorem natCast_magicQ_eq_oddAdjustDown : (magicQ w : Int) = oddAdjustDown (magicXq w + 2 ^ w) := by
  rw [natCast_magicQ_eq_oddAdjustDown_add hpos hle, oddAdjustDown_add_of_even _ (two_pow_emod_two hpos)]

theorem magicP_odd : magicP w % 2 = 1 := by
  have h := oddAdjust_emod_two (magicXp w)
  rw [← natCast_magicP_eq_oddAdjust hpos hle] at h
  omega

theorem magicQ_odd : magicQ w % 2 = 1 := by
  have h := oddAdjustDown_emod_two (magicXq w + 2 ^ w)
  rw [← natCast_magicQ_eq_oddAdjustDown hpos hle] at h
  omega

end pair

/-- Settles O23: `xp` is the model's floor, and rounding it up to odd stays below the even `2^w`. -/
theorem magicPIsTheExactFloor : Obligations.MagicPIsTheExactFloor := by
  intro w hpos hle
  simp only [floor_exp_mul_two_pow hle]
  exact ⟨magicXp_pos hpos, magicXp_lt hle, natCast_magicP w, natCast_magicP_eq_oddAdjust hpos hle⟩

/-- Settles O24: `xq` is the model's floor, and rounding it down to odd stays above the even `-2^w`. -/
theorem magicQIsTheExactFloor : Obligations.MagicQIsTheExactFloor := by
  intro w hpos hle
  simp only [floor_golden_mul_two_pow hle]
  exact ⟨magicXq_neg w, natCast_magicQ w, neg_two_pow_lt_oddAdjustDown_magicXq hpos hle,
    natCast_magicQ_eq_oddAdjustDown_add hpos hle⟩

/-- Settles O25: both words are adjustments of a floor to odd, written as the two cases of that adjustment. -/
theorem magicPairIsOdd : Obligations.MagicPairIsOdd := by
  intro w hpos hle
  simp only [floor_exp_mul_two_pow hle, floor_golden_sub_one_mul_two_pow hle, ← oddAdjust_eq_ite,
    ← oddAdjustDown_eq_ite]
  exact ⟨natCast_magicP_eq_oddAdjust hpos hle, natCast_magicQ_eq_oddAdjustDown hpos hle, magicP_odd hpos hle,
    magicQ_odd hpos hle⟩

/-! ### GEN_MAGIC -/

/-- A command whose first error is `e` changes STATUS alone (R175, R176). -/
theorem exec_of_firstError {i : Instr} {s : State} {e : ErrCode} (h : firstError (checksOf i s) = some e) :
    exec i s = .next { s with status := completedStatus e s.status } :=
  (exec_eq i s).trans (finishWith_error _ s h)

/-- A command with legal operands makes its writes and completes (R176). -/
theorem exec_of_operandsLegal {i : Instr} {s : State} (h : OperandsLegal i s) :
    exec i s = .next ((writesOf i s).complete .ok) :=
  (exec_eq i s).trans (finishWith_none _ s ((firstError_checksOf_eq_none_iff i s).2 h))

theorem State.badWidth_eq_true_iff (s : State) : s.badWidth = true ↔ ¬WidthLegal s := by
  rw [← s.badWidth_eq_false_iff, Bool.not_eq_false]

theorem execGenMagic_of_badWidth {s : State} (h : ¬WidthLegal s) :
    exec .genMagic s = .next { s with status := completedStatus .badWidth s.status } :=
  exec_of_firstError (if_pos (s.badWidth_eq_true_iff.2 h))

/-- Settles O26: the one check of GEN_MAGIC is the width; its writes are the pair, and the frame of its row holds. -/
theorem genMagicWritesThePair : Obligations.GenMagicWritesThePair := by
  refine ⟨by decide, by decide, by decide, by decide, by decide, fun s => ⟨execGenMagic_of_badWidth, fun hwidth => ?_⟩⟩
  have h : exec .genMagic s = .next ((s.writeMagic s.snapW).complete .ok) :=
    exec_of_operandsLegal (i := .genMagic) hwidth
  exact ⟨_, h, s.writeMagic_magicIs s, exec_status h, exec_sameSched h (by simp), exec_sameBlock h nofun nofun,
    exec_sameSubFrom h, exec_sameMsgFrom h, exec_sameOutsideEngine h⟩

end Sys2Proof.Machine
end

section
/-! PROOFS of 41_key_schedule.md. The initial fill (R115), the mix as sequences (R117 to R120), and the three commands
that write a schedule (R116, R121, R126): each reports the first error of its table or makes its writes, and a build is
the fill followed by the mix. -/

namespace Sys2Proof.Machine

open Sys2Proof

/-! ### The initial fill -/

/-- The closed form of a fill, from any first word. -/
theorem fillFrom_getD {w q n x k : Nat} (hx : x < 2 ^ w) (hk : k < n) :
    (fillFrom w q n x).getD k 0 = (x + k * q) % 2 ^ w := by
  induction n generalizing x k with
  | zero => exact absurd hk (Nat.not_lt_zero k)
  | succ n ih =>
    cases k with
    | zero => simpa [fillFrom] using (Nat.mod_eq_of_lt hx).symm
    | succ k =>
      calc (fillFrom w q (n + 1) x).getD (k + 1) 0
          = (addW w x q + k * q) % 2 ^ w := ih (addW_lt ..) (Nat.lt_of_succ_lt_succ hk)
        _ = (x + (k + 1) * q) % 2 ^ w := by rw [addW, Nat.mod_add_mod, Nat.succ_mul, Nat.add_assoc, Nat.add_comm q]

theorem initialFill_getD {w r k : Nat} (hk : k < 2 * (r + 1)) :
    (initialFill w r).getD k 0 = (magicP w + k * magicQ w) % 2 ^ w :=
  fillFrom_getD (magicP_lt w) hk

theorem initialFill_getD_succ {w r k : Nat} (hk : k + 1 < 2 * (r + 1)) :
    (initialFill w r).getD (k + 1) 0 = addW w ((initialFill w r).getD k 0) (magicQ w) := by
  rw [initialFill_getD hk, initialFill_getD (Nat.lt_of_succ_lt hk), addW, Nat.mod_add_mod, Nat.succ_mul, Nat.add_assoc]

/-- Settles O27: the closed form by induction on the length of the fill; the recurrence follows from it. -/
theorem initialFillIsLinear : Obligations.InitialFillIsLinear := by
  refine fun w r => ⟨initialFill_length w r, rfl, fun k hpos hk => ?_, fun k => initialFill_getD⟩
  obtain ⟨k, rfl⟩ := Nat.exists_eq_add_of_le' hpos
  exact initialFill_getD_succ hk

/-! ### The key mix -/

/-- The iterations of the mix in order: the last one is made on what the others leave. -/
theorem mixLoop_succ (w n : Nat) (m : Mixing) : mixLoop w (n + 1) m = mixStep w (mixLoop w n m) := by
  induction n generalizing m with
  | zero => rfl
  | succ n ih => exact ih (mixStep w m)

@[simp] theorem mixLoop_keyCopy_length (w n : Nat) (m : Mixing) :
    (mixLoop w n m).keyCopy.length = m.keyCopy.length := by
  induction n with
  | zero => rfl
  | succ n ih => rw [mixLoop_succ, mixStep_keyCopy_length, ih]

theorem getD_set_of_lt {l : List Nat} {i : Nat} (hi : i < l.length) (x k : Nat) :
    (l.set i x).getD k 0 = if k = i then x else l.getD k 0 := by
  simp only [List.getD_eq_getElem?_getD, List.getElem?_set, hi, if_true, eq_comm (a := k)]
  split <;> rfl

/-- The working state of the mix after `n` iterations. -/
def mixAt (w : Nat) (sub key : List Nat) (n : Nat) : Mixing := mixLoop w n (mixStart sub key)

section mixAt

variable (w : Nat) (sub key : List Nat) (n : Nat)

theorem mixAt_succ : mixAt w sub key (n + 1) = mixStep w (mixAt w sub key n) := mixLoop_succ ..

theorem mixWords_eq_mixAt :
    mixWords w sub key = (mixAt w sub key (3 * max sub.length key.length)).subkeys := rfl

@[simp] theorem mixAt_subkeys_length : (mixAt w sub key n).subkeys.length = sub.length := mixLoop_subkeys_length ..

@[simp] theorem mixAt_keyCopy_length : (mixAt w sub key n).keyCopy.length = key.length := mixLoop_keyCopy_length ..

/-- `i` and `j` count the iterations modulo the two lengths (R117). -/
theorem mixAt_indices :
    (mixAt w sub key n).i = n % sub.length ∧ (mixAt w sub key n).j = n % key.length := by
  induction n with
  | zero => exact ⟨(Nat.zero_mod _).symm, (Nat.zero_mod _).symm⟩
  | succ n ih =>
    obtain ⟨hi, hj⟩ := ih
    simp [mixAt_succ, mixStep, hi, hj]

theorem mixAt_succ_a :
    (mixAt w sub key (n + 1)).a =
      rotlW w (addW w (addW w ((mixAt w sub key n).subkeys.getD (n % sub.length) 0) (mixAt w sub key n).a)
        (mixAt w sub key n).b) 3 := by
  rw [mixAt_succ, ← (mixAt_indices w sub key n).1]
  rfl

theorem mixAt_succ_b :
    (mixAt w sub key (n + 1)).b =
      rotlW w (addW w (addW w ((mixAt w sub key n).keyCopy.getD (n % key.length) 0) (mixAt w sub key (n + 1)).a)
        (mixAt w sub key n).b) (addW w (mixAt w sub key (n + 1)).a (mixAt w sub key n).b) := by
  rw [mixAt_succ, ← (mixAt_indices w sub key n).2]
  rfl

theorem mixAt_succ_subkeys :
    (mixAt w sub key (n + 1)).subkeys =
      (mixAt w sub key n).subkeys.set (n % sub.length) (mixAt w sub key (n + 1)).a := by
  rw [mixAt_succ, ← (mixAt_indices w sub key n).1]
  rfl

theorem mixAt_succ_keyCopy :
    (mixAt w sub key (n + 1)).keyCopy =
      (mixAt w sub key n).keyCopy.set (n % key.length) (mixAt w sub key (n + 1)).b := by
  rw [mixAt_succ, ← (mixAt_indices w sub key n).2]
  rfl

end mixAt

/-- Settles O29: the sequences are the fields of the working state after `n` iterations. -/
theorem mixIsTheInterleavedUpdate : Obligations.MixIsTheInterleavedUpdate := by
  intro w sub key hsub hkey
  refine ⟨fun n => (mixAt w sub key n).a, fun n => (mixAt w sub key n).b,
    fun n k => (mixAt w sub key n).subkeys.getD k 0, fun n k => (mixAt w sub key n).keyCopy.getD k 0,
    rfl, rfl, fun _ => rfl, fun _ => rfl, fun n _ => ⟨mixAt_succ_a w sub key n, mixAt_succ_b w sub key n, ?_, ?_⟩,
    mixWords_length w sub key, fun k _ => by rw [mixWords_eq_mixAt]⟩
  · intro k
    have hi : n % sub.length < (mixAt w sub key n).subkeys.length := by
      rw [mixAt_subkeys_length]
      exact Nat.mod_lt n (List.length_pos_of_ne_nil hsub)
    simp only [mixAt_succ_subkeys, getD_set_of_lt hi]
  · intro k
    have hj : n % key.length < (mixAt w sub key n).keyCopy.length := by
      rw [mixAt_keyCopy_length]
      exact Nat.mod_lt n (List.length_pos_of_ne_nil hkey)
    simp only [mixAt_succ_keyCopy, getD_set_of_lt hj]

/-- Settles O30: the amount 3 modulo the width is 3, 1 or 0. -/
theorem rotationOfAByWidth : Obligations.RotationOfAByWidth := by
  refine fun w x _ => ⟨fun hw => ?_, ?_, ?_⟩
  · simp [rotlW, Nat.mod_eq_of_lt (show 3 < w from hw)]
  · rintro rfl
    rfl
  · rintro (rfl | rfl)
    · rfl
    · exact rotlW_width 3 x

/-! ### The first error of a command -/

theorem firstError_cons_getD (applies : Bool) (e d : ErrCode) (rest : List (Bool × ErrCode)) :
    (firstError ((applies, e) :: rest)).getD d = if applies then e else (firstError rest).getD d := by
  cases applies <;> rfl

/-- The checks of a command are the rows of R184, in its order. -/
theorem ruleError_eq (i : Instr) (s : State) : ruleError i s = (firstError (checksOf i s)).getD .ok := by
  cases i <;>
    simp only [ruleError, checksOf, State.messageChecks, firstError_cons_getD, firstError_nil, Option.getD_none,
      State.badWidth, State.badRounds, State.emptyKey, State.longKey, State.oddMessage, State.longMessage,
      State.schedNot, decide_eq_true_eq]

/-- A command that the table gives an error reports it and changes STATUS alone (R175). -/
theorem exec_of_ruleError {i : Instr} {s : State} {e : ErrCode} (h : ruleError i s = e) (he : e ≠ .ok) :
    exec i s = .next { s with status := completedStatus e s.status } := by
  refine exec_of_firstError ?_
  rw [ruleError_eq] at h
  cases hfirst : firstError (checksOf i s) with
  | none => exact absurd (by simpa [hfirst] using h.symm) he
  | some e' => simpa [hfirst] using h

theorem ruleError_initSubkeys_of_badWidth {s : State} (h : ¬WidthLegal s) : ruleError .initSubkeys s = .badWidth :=
  if_pos (by simp only [WidthLegal] at h; omega)

theorem ruleError_initSubkeys_of_badRounds {s : State} (hwidth : WidthLegal s) (h : ¬RoundsLegal s) :
    ruleError .initSubkeys s = .badRounds := by
  obtain ⟨hpos, hmax⟩ := hwidth
  exact (if_neg (by omega)).trans (if_pos (Nat.lt_of_not_le h))

/-! ### What writing a schedule leaves -/

section resultLaws

/-! A completion changes STATUS alone, and a write of SCHED.STATE no S cell. -/

variable {n : Nat} {ws : List Nat} {w r : Nat} {st : SchedState} {u : State} (e : ErrCode)

theorem SubHolds.complete (h : SubHolds n ws u) : SubHolds n ws (u.complete e) := h

theorem MagicIs.complete (h : MagicIs w u) : MagicIs w (u.complete e) := h

theorem SchedIs.complete (h : SchedIs st w r u) : SchedIs st w r (u.complete e) := h

theorem SubHolds.writeSchedState (st : SchedState) (h : SubHolds n ws u) : SubHolds n ws (u.writeSchedState st) := h

end resultLaws

/-- The subkeys, the pair and SCHED that a schedule build leaves, whatever the state `u` its writes are made in
(R116, R126). -/
theorem State.writeSchedule_results (s u : State) {ws : List Nat} (st : SchedState)
    (hlength : ws.length = 2 * (s.snapR + 1)) :
    SubHolds (2 * (s.snapR + 1)) ws (u.writeSchedule s.snapW s.snapR ws st) ∧
      MagicIs s.snapW (u.writeSchedule s.snapW s.snapR ws st) ∧
      SchedIs st s.snapW s.snapR (u.writeSchedule s.snapW s.snapR ws st) :=
  ⟨hlength ▸ u.writeSchedule_subHolds _ _ ws st, s.writeSchedule_magicIs u _ ws st, rfl,
    s.writeSchedule_schedW u ws st, s.writeSchedule_schedR u ws st⟩

theorem execInitSubkeys_of_legal {s : State} (hwidth : WidthLegal s) (hrounds : RoundsLegal s) :
    exec .initSubkeys s =
      .next ((s.writeSchedule s.snapW s.snapR (initialFill s.snapW s.snapR) .init).complete .ok) :=
  exec_of_operandsLegal (i := .initSubkeys) ⟨hwidth, hrounds⟩

theorem execBuildSchedule_of_legal {s : State} (hwidth : WidthLegal s) (hrounds : RoundsLegal s) (hkey : KeyLegal s) :
    exec .buildSchedule s = .next ((s.writeSchedule s.snapW s.snapR s.builtSub .ready).complete .ok) :=
  exec_of_operandsLegal (i := .buildSchedule) ⟨hwidth, hrounds, hkey⟩

theorem execMixKey_of_legal {s : State} (hinit : s.sched.state = .init) (hkey : KeyLegal s) :
    exec .mixKey s = .next (((s.writeSub s.mixedSub).writeSchedState .ready).complete .ok) :=
  exec_of_operandsLegal (i := .mixKey) ⟨hinit, hkey⟩

/-- Settles O28: the two checks in order, else the writes of a schedule; the frame is that of the command's row. -/
theorem initSubkeysWritesTheFill : Obligations.InitSubkeysWritesTheFill := by
  refine ⟨by decide, fun s => ⟨fun hwidth => exec_of_ruleError (ruleError_initSubkeys_of_badWidth hwidth) nofun,
    fun hwidth hrounds => exec_of_ruleError (ruleError_initSubkeys_of_badRounds hwidth hrounds) nofun,
    fun hwidth hrounds => ?_⟩⟩
  have h := execInitSubkeys_of_legal hwidth hrounds
  obtain ⟨hsub, hmagic, hsched⟩ := s.writeSchedule_results s .init (initialFill_length s.snapW s.snapR)
  exact ⟨_, h, hsub.complete .ok, hmagic.complete .ok, hsched.complete .ok, exec_status h, exec_sameSubFrom h,
    exec_sameMsgFrom h, exec_sameBlock h nofun nofun, exec_sameOutsideEngine h⟩

/-- Settles O32: the error clause is the rule's table, the other the writes of a schedule. -/
theorem buildScheduleBuildsFromTheKey : Obligations.BuildScheduleBuildsFromTheKey := by
  refine ⟨by decide, fun s => ⟨exec_of_ruleError rfl, fun hwidth hrounds hkey => ?_⟩⟩
  have h := execBuildSchedule_of_legal hwidth hrounds hkey
  obtain ⟨hsub, hmagic, hsched⟩ := s.writeSchedule_results s .ready s.builtSub_length
  exact ⟨_, h, hsub.complete .ok, hmagic.complete .ok, hsched.complete .ok, exec_status h, exec_sameSubFrom h,
    exec_sameMsgFrom h, exec_sameBlock h nofun nofun, exec_sameOutsideEngine h⟩

/-- Settles O31: the three checks in order, else the mix is written over as many cells as it was read from. -/
theorem mixKeyMixesTheStoredFill : Obligations.MixKeyMixesTheStoredFill := by
  refine ⟨by decide, fun s => ⟨fun hstate => exec_of_ruleError (if_pos hstate) nofun,
    fun hinit hempty => exec_of_ruleError (e := .invalidKey) (by simp [ruleError, hinit, hempty]) nofun,
    fun hinit hlong hpos => exec_of_ruleError (e := .keyTooLong) (by simp [ruleError, hinit, hpos, hlong]) nofun,
    fun hinit hkey => ?_⟩⟩
  have h := execMixKey_of_legal hinit hkey
  have hlength : s.mixedSub.length = 2 * (s.schedR + 1) := s.mixedSub_length
  have hsub : SubHolds (2 * (s.schedR + 1)) s.mixedSub (s.writeSub s.mixedSub) :=
    hlength ▸ s.writeSub_subHolds s.mixedSub
  exact ⟨_, h, (hsub.writeSchedState .ready).complete .ok, ⟨rfl, execMixKey_sameSchedOperands h⟩,
    exec_sameMagic h (by simp), exec_status h, exec_sameSubFrom h, exec_sameMsgFrom h, exec_sameBlock h nofun nofun,
    exec_sameOutsideEngine h⟩

/-! ### A build is the fill and then the mix -/

/-- Subkeys written over as many others leave nothing of them. -/
theorem State.writeSub_writeSub {us ws : List Nat} (s : State) (h : us.length = ws.length) :
    (s.writeSub us).writeSub ws = s.writeSub ws := by
  simp only [State.writeSub, Memory.writeFrom_writeFrom (us.map zext64) (ws.map zext64) s.sRam 0 (by simpa using h)]

/-- Writing new subkeys and a new STATE over a completed schedule is writing the new schedule at once. -/
theorem State.writeSchedule_overwrite (s : State) (w r : Nat) {us ws : List Nat} (st st' : SchedState)
    (h : us.length = ws.length) :
    ((((s.writeSchedule w r us st).complete .ok).writeSub ws).writeSchedState st').complete .ok =
      (s.writeSchedule w r ws st').complete .ok :=
  calc ((((s.writeSchedule w r us st).complete .ok).writeSub ws).writeSchedState st').complete .ok
      = ((((s.writeSub us).writeSub ws).writeMagic w).writeSched w r st').complete .ok := rfl
    _ = (s.writeSchedule w r ws st').complete .ok := by rw [s.writeSub_writeSub h, State.writeSchedule]

/-- A key enters a schedule by its words of width `w` alone (R122, R125). -/
theorem State.keyWords_congr {s t : State} {w c : Nat}
    (h : ∀ j, j < c → wordOf w (t.keyCell j) = wordOf w (s.keyCell j)) : t.keyWords w c = s.keyWords w c :=
  List.map_congr_left fun j hj => h j (List.mem_range.1 hj)

/-- The state that INIT_SUBKEYS leaves when its operands are legal (`execInitSubkeys_of_legal`). -/
def State.filled (s : State) : State :=
  (s.writeSchedule s.snapW s.snapR (initialFill s.snapW s.snapR) .init).complete .ok

theorem State.filled_params (s : State) : s.filled.params = s.params := by
  rw [State.filled, State.complete_params, State.writeSchedule_params]

theorem State.filled_snap (s : State) : s.filled.snap = s.snap := by
  rw [State.filled, State.complete_snap, State.writeSchedule_snap]

theorem State.filled_keyRam (s : State) : s.filled.keyRam = s.keyRam := by
  rw [State.filled, State.complete_keyRam, State.writeSchedule_keyRam]

theorem State.filled_state (s : State) : s.filled.sched.state = .init := by
  rw [State.filled, State.complete_sched, State.writeSchedule_sched]

theorem State.filled_keyLegal {s : State} (h : KeyLegal s) : KeyLegal s.filled := by
  rwa [KeyLegal, s.filled_params, State.snapC_congr s.filled_snap]

/-- MIX_KEY computes on the filled state the subkeys of a build (R124, R126). -/
theorem State.filled_mixedSub {s : State} (hwf : s.params.wellFormed = true) (hwidth : WidthLegal s)
    (hrounds : RoundsLegal s) : s.filled.mixedSub = s.builtSub := by
  have hinv : ScheduleInv s.filled := scheduleInv_initSubkeys hwidth hrounds
  have hw : s.filled.schedW = s.snapW := s.writeSchedule_schedW s _ _
  have hr : s.filled.schedR = s.snapR := s.writeSchedule_schedR s _ _
  have hc : s.filled.snapC = s.snapC := State.snapC_congr s.filled_snap
  have hkey : s.filled.keyWords s.snapW s.snapC = s.keyWords s.snapW s.snapC :=
    State.keyWords_congr fun j _ => by rw [State.keyCell_congr s.filled_keyRam]
  have hwf' : s.filled.params.wellFormed = true := by rwa [s.filled_params]
  rw [hinv.mixedSub_eq s.filled_state hwf', hw, hr, hc, hkey, State.builtSub]

/-- Settles O33: the mix reads the fill back and overwrites exactly its cells. -/
theorem buildEqualsInitThenMix : Obligations.BuildEqualsInitThenMix := by
  intro s hwf hwidth hrounds hkey
  have hmix := execMixKey_of_legal s.filled_state (State.filled_keyLegal hkey)
  have hlength : (initialFill s.snapW s.snapR).length = s.builtSub.length :=
    (initialFill_length ..).trans s.builtSub_length.symm
  rw [State.filled_mixedSub hwf hwidth hrounds, State.filled, s.writeSchedule_overwrite _ _ _ _ hlength] at hmix
  exact ⟨s.filled, _, execInitSubkeys_of_legal hwidth hrounds, hmix,
    execBuildSchedule_of_legal hwidth hrounds hkey, rfl⟩

/-- Settles O34: what a build writes is a function of width, round count and key words. -/
theorem buildIsRepeatable : Obligations.BuildIsRepeatable := by
  intro s t hws hrs hks hwt hrt hkt hw hr hc hkey
  have hbuilt : t.builtSub = s.builtSub := by
    rw [State.builtSub, State.builtSub, hw, hr, hc, State.keyWords_congr hkey]
  have hs := execBuildSchedule_of_legal hws hrs hks
  have ht := execBuildSchedule_of_legal hwt hrt hkt
  rw [hw, hr, hbuilt] at ht
  obtain ⟨hsub, -⟩ := s.writeSchedule_results s .ready s.builtSub_length
  obtain ⟨hsub', -⟩ := s.writeSchedule_results t .ready s.builtSub_length
  refine ⟨_, _, hs, ht, fun k hk => ?_, ?_⟩
  · exact (hsub'.complete .ok k hk).trans (hsub.complete .ok k hk).symm
  · simp

end Sys2Proof.Machine
end

section
/-! PROOFS of 42_round_transform.md. The rounds as sequences of blocks (R135 to R137), decryption as the inverse of
encryption (R138), and the two commands on the block registers (R140, R142), which read the stored schedule and never
CFG (R141). -/

namespace Sys2Proof.Machine

open Sys2Proof

/-! ### The rounds as a sequence -/

/-- The block with the first `k` of the rounds `r` down to 1 undone (`decRounds_roundsUndone`). -/
def roundsUndone (w : Nat) (sub : List Nat) (r : Nat) (ab : Nat × Nat) : Nat → Nat × Nat
  | 0 => ab
  | k + 1 => decRound w sub (r - k) (roundsUndone w sub r ab k)

theorem roundsUndone_pred {w r i : Nat} {sub : List Nat} {ab : Nat × Nat} (hpos : 1 ≤ i) (hi : i ≤ r) :
    roundsUndone w sub r ab (r - (i - 1)) = decRound w sub i (roundsUndone w sub r ab (r - i)) := by
  have hsucc : r - (i - 1) = r - i + 1 := by omega
  rw [hsucc, roundsUndone, Nat.sub_sub_self hi]

/-- The rounds `n` down to 1 are what is left of the rounds `r` down to 1. -/
theorem decRounds_roundsUndone {w r : Nat} {sub : List Nat} {ab : Nat × Nat} {n : Nat} (hn : n ≤ r) :
    decRounds w sub n (roundsUndone w sub r ab (r - n)) = roundsUndone w sub r ab r := by
  induction n with
  | zero => rfl
  | succ n ih =>
    rw [decRounds, ← roundsUndone_pred (Nat.le_add_left 1 n) hn, Nat.add_sub_cancel]
    exact ih (Nat.le_of_succ_le hn)

theorem encRounds_of_pos {w i : Nat} {sub : List Nat} {ab : Nat × Nat} (hi : 1 ≤ i) :
    encRounds w sub i ab = encRound w sub i (encRounds w sub (i - 1) ab) := by
  obtain ⟨n, rfl⟩ := Nat.exists_eq_add_of_le' hi
  rfl

/-- The blocks that encryption goes through, by the last round done (R135). -/
theorem encBlockWords_blocks (w r : Nat) (sub : List Nat) (ab : Nat × Nat) :
    ∃ block : Nat → Nat × Nat, block 0 = (addW w ab.1 (sub.getD 0 0), addW w ab.2 (sub.getD 1 0)) ∧
      (∀ i, 1 ≤ i → block i = encRound w sub i (block (i - 1))) ∧ encBlockWords w r sub ab = block r :=
  ⟨fun i => encRounds w sub i _, rfl, fun _ hi => encRounds_of_pos hi, rfl⟩

/-- The blocks that decryption goes through, by the next round to undo (R137). -/
theorem decBlockWords_blocks (w r : Nat) (sub : List Nat) (ab : Nat × Nat) :
    ∃ block : Nat → Nat × Nat, block r = ab ∧
      (∀ i, 1 ≤ i → i ≤ r → block (i - 1) = decRound w sub i (block i)) ∧
      decBlockWords w r sub ab = decWhiten w sub (block 0) := by
  have hstart : roundsUndone w sub r ab (r - r) = ab := by rw [Nat.sub_self, roundsUndone]
  have hend := decRounds_roundsUndone (w := w) (sub := sub) (ab := ab) r.le_refl
  rw [hstart] at hend
  exact ⟨fun i => roundsUndone w sub r ab (r - i), hstart, fun _ => roundsUndone_pred, congrArg (decWhiten w sub) hend⟩

/-- Settles O35: `A i` and `B i` are the halves of the block after round `i` of encryption, or before round `i` of
decryption. -/
theorem roundsFollowTheRecurrence : Obligations.RoundsFollowTheRecurrence := by
  intro w r sub a b
  obtain ⟨enc, hencStart, hencRound, hencEnd⟩ := encBlockWords_blocks w r sub (a, b)
  obtain ⟨dec, hdecStart, hdecRound, hdecEnd⟩ := decBlockWords_blocks w r sub (a, b)
  refine ⟨⟨fun i => (enc i).1, fun i => (enc i).2, congrArg Prod.fst hencStart, congrArg Prod.snd hencStart,
    fun i hpos _ => ?_, hencEnd⟩, ⟨fun i => (dec i).1, fun i => (dec i).2, congrArg Prod.fst hdecStart,
    congrArg Prod.snd hdecStart, fun i hpos hi => ?_, hdecEnd⟩⟩
  · simp only [hencRound i hpos]
    exact ⟨rfl, rfl⟩
  · simp only [hdecRound i hpos hi]
    exact ⟨rfl, rfl⟩

/-- Settles O37: with no round to run, what is left of each direction is its whitening. -/
theorem zeroRoundsOnlyWhiten : Obligations.ZeroRoundsOnlyWhiten := fun _ _ _ _ => ⟨rfl, rfl⟩

/-! ### Decryption inverts encryption -/

theorem getD_lt_of_words {w : Nat} {sub : List Nat} (hsub : ∀ x ∈ sub, x < 2 ^ w) (k : Nat) :
    sub.getD k 0 < 2 ^ w := by
  by_cases hk : k < sub.length
  · rw [List.getD_eq_getElem _ _ hk]
    exact hsub _ (List.getElem_mem hk)
  · rw [List.getD_eq_default _ _ (Nat.le_of_not_lt hk)]
    exact Nat.two_pow_pos w

/-- Both halves of a block are `w`-bit words. -/
def IsBlock (w : Nat) (ab : Nat × Nat) : Prop := ab.1 < 2 ^ w ∧ ab.2 < 2 ^ w

theorem IsBlock.encRounds {w : Nat} {sub : List Nat} {n : Nat} {ab : Nat × Nat} (h : IsBlock w ab) :
    IsBlock w (encRounds w sub n ab) := by
  cases n with
  | zero => exact h
  | succ n => exact ⟨addW_lt .., addW_lt ..⟩

section rounds

variable {w : Nat} (hw : 0 < w)

include hw

/-- A half round, undone: the half `x` with the other half `y` and the subkey `k` (R135, R137). -/
theorem decHalf_encHalf {x y k : Nat} (hx : x < 2 ^ w) (hy : y < 2 ^ w) (hk : k < 2 ^ w) :
    rotrW w (subW w (addW w (rotlW w (x ^^^ y) y) k) k) y ^^^ y = x := by
  have hxy := xorW_lt hx hy
  rw [subW_addW_cancel (rotlW_lt y hw hxy) hk, rotrW_rotlW y hw hxy, Nat.xor_xor_cancel_right]

theorem encHalf_decHalf {x y k : Nat} (hx : x < 2 ^ w) (hk : k < 2 ^ w) :
    addW w (rotlW w (rotrW w (subW w x k) y ^^^ y ^^^ y) y) k = x := by
  rw [Nat.xor_xor_cancel_right, rotlW_rotrW y hw (subW_lt ..), addW_subW_cancel hx hk]

theorem IsBlock.decRound (sub : List Nat) (i : Nat) {ab : Nat × Nat} (h : IsBlock w ab) :
    IsBlock w (decRound w sub i ab) := by
  obtain ⟨ha, -⟩ := h
  have hb := xorW_lt (rotrW_lt ab.1 hw (subW_lt w ab.2 (sub.getD (2 * i + 1) 0))) ha
  exact ⟨xorW_lt (rotrW_lt _ hw (subW_lt ..)) hb, hb⟩

theorem IsBlock.decRounds {sub : List Nat} {n : Nat} {ab : Nat × Nat} (h : IsBlock w ab) :
    IsBlock w (decRounds w sub n ab) := by
  induction n generalizing ab with
  | zero => exact h
  | succ n ih => exact ih (h.decRound hw sub (n + 1))

variable {sub : List Nat} (hsub : ∀ x ∈ sub, x < 2 ^ w)

include hsub

/-- Undoing the right half first gives back the left half that the right one was made with (R136). -/
theorem decRound_encRound (i : Nat) {ab : Nat × Nat} (h : IsBlock w ab) :
    decRound w sub i (encRound w sub i ab) = ab := by
  obtain ⟨ha, hb⟩ := h
  simp only [decRound, encRound, decHalf_encHalf hw hb (addW_lt ..) (getD_lt_of_words hsub _),
    decHalf_encHalf hw ha hb (getD_lt_of_words hsub _)]

theorem encRound_decRound (i : Nat) {ab : Nat × Nat} (h : IsBlock w ab) :
    encRound w sub i (decRound w sub i ab) = ab := by
  obtain ⟨ha, hb⟩ := h
  simp only [decRound, encRound, encHalf_decHalf hw ha (getD_lt_of_words hsub _),
    encHalf_decHalf hw hb (getD_lt_of_words hsub _)]

theorem decRounds_encRounds (n : Nat) {ab : Nat × Nat} (h : IsBlock w ab) :
    decRounds w sub n (encRounds w sub n ab) = ab := by
  induction n with
  | zero => rfl
  | succ n ih => rw [decRounds, encRounds, decRound_encRound hw hsub _ h.encRounds, ih]

theorem encRounds_decRounds (n : Nat) {ab : Nat × Nat} (h : IsBlock w ab) :
    encRounds w sub n (decRounds w sub n ab) = ab := by
  induction n generalizing ab with
  | zero => rfl
  | succ n ih => rw [decRounds, encRounds, ih (h.decRound hw sub _), encRound_decRound hw hsub _ h]

theorem decBlockWords_encBlockWords (r : Nat) {ab : Nat × Nat} (h : IsBlock w ab) :
    decBlockWords w r sub (encBlockWords w r sub ab) = ab := by
  obtain ⟨ha, hb⟩ := h
  rw [decBlockWords, encBlockWords, decRounds_encRounds hw hsub r ⟨addW_lt .., addW_lt ..⟩]
  exact Prod.ext (subW_addW_cancel ha (getD_lt_of_words hsub 0)) (subW_addW_cancel hb (getD_lt_of_words hsub 1))

theorem encBlockWords_decBlockWords (r : Nat) {ab : Nat × Nat} (h : IsBlock w ab) :
    encBlockWords w r sub (decBlockWords w r sub ab) = ab := by
  obtain ⟨ha, hb⟩ := h.decRounds (sub := sub) (n := r) hw
  simp only [encBlockWords, decBlockWords, decWhiten, addW_subW_cancel ha (getD_lt_of_words hsub 0),
    addW_subW_cancel hb (getD_lt_of_words hsub 1)]
  exact encRounds_decRounds hw hsub r h

end rounds

/-- Settles O36: each half round, each round and the whitening are undone, in both directions. -/
theorem decryptionInvertsEncryption : Obligations.DecryptionInvertsEncryption := fun _ r _ _ _ hw ha hb _ hsub =>
  ⟨decBlockWords_encBlockWords hw hsub r ⟨ha, hb⟩, encBlockWords_decBlockWords hw hsub r ⟨ha, hb⟩⟩

/-! ### The block commands -/

theorem IsBlock.encBlockWords {w r : Nat} {sub : List Nat} {ab : Nat × Nat} :
    IsBlock w (encBlockWords w r sub ab) := IsBlock.encRounds ⟨addW_lt .., addW_lt ..⟩

theorem State.blockWords_isBlock (s : State) : IsBlock s.schedW s.blockWords := ⟨wordOf_lt .., wordOf_lt ..⟩

theorem execEncBlock_of_ready {s : State} (h : s.sched.state = .ready) :
    exec .encBlock s =
      .next ((s.writeBlock (encBlockWords s.schedW s.schedR s.storedSub s.blockWords)).complete .ok) :=
  exec_of_operandsLegal (i := .encBlock) h

theorem execDecBlock_of_ready {s : State} (h : s.sched.state = .ready) :
    exec .decBlock s =
      .next ((s.writeBlock (decBlockWords s.schedW s.schedR s.storedSub s.blockWords)).complete .ok) :=
  exec_of_operandsLegal (i := .decBlock) h

/-- R140, R142: a block command changes STATUS and the block registers alone. -/
theorem execBlock_frame {i : Instr} {s t : State} (hi : i = .encBlock ∨ i = .decBlock) (h : exec i s = .next t) :
    t.sched = s.sched ∧ t.magicP = s.magicP ∧ t.magicQ = s.magicQ ∧ SameSubFrom 0 s t ∧ SameMsgFrom 0 s t ∧
      SameOutsideEngine s t := by
  have hsched : t.sched = s.sched :=
    exec_rule (P := fun u => u.sched = s.sched) h (fun _ _ hu => hu) rfl (by obtain rfl | rfl := hi <;> rfl)
  obtain ⟨hp, hq, -⟩ := exec_sameMagic h (.inr (.inr hi))
  obtain rfl | rfl := hi <;>
    exact ⟨hsched, hp, hq, exec_sameSubFrom h, exec_sameMsgFrom h, exec_sameOutsideEngine h⟩

/-- Settles O38: the one check is SCHED.STATE; else the block is encrypted with the stored subkeys. -/
theorem encBlockEncryptsInPlace : Obligations.EncBlockEncryptsInPlace := by
  refine ⟨by decide, fun s => ⟨fun hstate => exec_of_ruleError (if_pos hstate) nofun, fun hready => ?_⟩⟩
  have h := execEncBlock_of_ready hready
  exact ⟨_, h, ⟨rfl, rfl⟩, exec_status h, execBlock_frame (.inl rfl) h⟩

/-- Settles O39: the one check is SCHED.STATE; else the block is decrypted with the stored subkeys. -/
theorem decBlockDecryptsInPlace : Obligations.DecBlockDecryptsInPlace := by
  refine ⟨by decide, fun s => ⟨fun hstate => exec_of_ruleError (if_pos hstate) nofun, fun hready => ?_⟩⟩
  have h := execDecBlock_of_ready hready
  exact ⟨_, h, ⟨rfl, rfl⟩, exec_status h, execBlock_frame (.inr rfl) h⟩

/-! ### The round trip of the block registers -/

theorem toNat_zext64_wordOf (w : Nat) (x : Cell) : (zext64 (wordOf w x)).toNat = x.toNat % 2 ^ w :=
  Nat.mod_eq_of_lt ((Nat.mod_le ..).trans_lt x.isLt)

theorem State.storedSub_words (s : State) : ∀ y ∈ s.storedSub, y < 2 ^ s.schedW := s.subWords_words _ _

theorem State.storedSub_congr {s u : State} (hsched : u.sched = s.sched)
    (h : ∀ k, k < 2 * (s.schedR + 1) → u.subCell k = s.subCell k) : u.storedSub = s.storedSub := by
  rw [State.storedSub, State.storedSub, State.schedW_congr hsched, State.schedR_congr hsched]
  exact List.map_congr_left fun k hk => by rw [h k (List.mem_range.1 hk)]

/-- A block written to the block registers and read back (R38). -/
theorem State.blockWords_of_block {u : State} {ab : Nat × Nat} (hw : u.schedW ≤ 64) (h : IsBlock u.schedW ab)
    (hleft : u.dataL = zext64 ab.1) (hright : u.dataR = zext64 ab.2) : u.blockWords = ab := by
  obtain ⟨ha, hb⟩ := h
  rw [State.blockWords, hleft, hright, wordOf_zext64 hw ha, wordOf_zext64 hw hb]

/-- Settles O40: DEC_BLOCK reads back the words that ENC_BLOCK wrote, and the two transforms cancel. -/
theorem decBlockRestoresTheBlock : Obligations.DecBlockRestoresTheBlock := by
  intro s hready hpos hmax
  refine ⟨_, execEncBlock_of_ready hready, rfl, fun u hsched hleft hright hsub => ?_⟩
  have hw : u.schedW = s.schedW := State.schedW_congr hsched
  have hblock : u.blockWords = encBlockWords s.schedW s.schedR s.storedSub s.blockWords :=
    State.blockWords_of_block (hw ▸ hmax) (hw ▸ .encBlockWords) hleft hright
  have hdec : decBlockWords u.schedW u.schedR u.storedSub u.blockWords = s.blockWords := by
    rw [hblock, hw, State.schedR_congr hsched, State.storedSub_congr hsched hsub,
      decBlockWords_encBlockWords hpos s.storedSub_words _ s.blockWords_isBlock]
  have h := execDecBlock_of_ready (s := u) (hsched ▸ hready)
  rw [hdec] at h
  exact ⟨_, h, rfl, toNat_zext64_wordOf .., toNat_zext64_wordOf ..⟩

/-! ### The stored schedule and CFG -/

/-- The state with other values of CFG and of the captured CFG (R25, R45). -/
def State.withCfg (c v : Cell) (s : State) : State := { s with cfg := c, snap := v }

/-- A command whose checks and writes do not depend on CFG and the captured CFG gives the same result for all their
values. -/
theorem exec_withCfg {i : Instr} {s : State} {c v : Cell} (hchecks : checksOf i (s.withCfg c v) = checksOf i s)
    (hwrites : writesOf i (s.withCfg c v) = (writesOf i s).withCfg c v) :
    ∃ t : State, exec i s = .next t ∧ exec i (s.withCfg c v) = .next (t.withCfg c v) := by
  rw [exec_eq, exec_eq, hchecks, hwrites]
  cases h : firstError (checksOf i s) with
  | none => exact ⟨_, finishWith_none _ _ h, finishWith_none _ _ h⟩
  | some e => exact ⟨_, finishWith_error _ _ h, finishWith_error _ _ h⟩

theorem checksOf_mixKey_withCfg {s : State} {c v : Cell} (hlen : (s.withCfg c v).snapC = s.snapC) :
    checksOf .mixKey (s.withCfg c v) = checksOf .mixKey s := by
  simp only [checksOf, State.emptyKey, State.longKey, hlen]
  rfl

theorem State.mixedSub_withCfg {s : State} {c v : Cell} (hlen : (s.withCfg c v).snapC = s.snapC) :
    (s.withCfg c v).mixedSub = s.mixedSub := by
  simp only [State.mixedSub, hlen]
  rfl

/-- Settles O41: the block commands read SCHED, the S RAM and the block registers, and MIX_KEY reads of the captured
CFG its KLEN field. -/
theorem storedScheduleIgnoresCfg : Obligations.StoredScheduleIgnoresCfg := by
  intro s c v
  constructor
  · rintro i (rfl | rfl) <;> exact exec_withCfg rfl rfl
  · intro hklen
    have hlen : (s.withCfg c v).snapC = s.snapC := congrArg BitVec.toNat hklen
    have hwrites : writesOf .mixKey (s.withCfg c v) = (writesOf .mixKey s).withCfg c v := by
      rw [writesOf, State.mixedSub_withCfg hlen]
      rfl
    exact exec_withCfg (checksOf_mixKey_withCfg hlen) hwrites

end Sys2Proof.Machine
end

section
/-! PROOFS of 43_block_codec.md. The message functions block by block (R155, R157), the two commands on the message RAM
(R156, R158), which build their own schedule, and the message restored by the two of them in turn (R159). -/

namespace Sys2Proof.Machine

open Sys2Proof

/-! ### The message functions -/

/-- Block `k` of the result is the function of block `k` alone (R155). -/
theorem mapBlocks_getD (f : Nat × Nat → Nat × Nat) : ∀ (ws : List Nat) (k : Nat), 2 * k + 1 < ws.length →
    ((mapBlocks f ws).getD (2 * k) 0, (mapBlocks f ws).getD (2 * k + 1) 0) =
      f (ws.getD (2 * k) 0, ws.getD (2 * k + 1) 0)
  | [], _, h => absurd h (Nat.not_lt_zero _)
  | [_], _, h => absurd h (by simp)
  | _ :: _ :: _, 0, _ => rfl
  | _ :: _ :: rest, k + 1, h => mapBlocks_getD f rest k (by simp only [List.length_cons] at h; omega)

/-- Settles O42: both functions map their block transform over the message. -/
theorem blocksAreIndependent : Obligations.BlocksAreIndependent := fun w r sub msg _ =>
  ⟨encMsgWords_length w r sub msg, decMsgWords_length w r sub msg, fun k hk =>
    ⟨mapBlocks_getD _ msg k hk, mapBlocks_getD _ msg k hk⟩⟩

section words

variable {w : Nat} {f g : Nat × Nat → Nat × Nat}

theorem mapBlocks_words (hf : ∀ ab, IsBlock w (f ab)) : ∀ {ws : List Nat}, (∀ y ∈ ws, y < 2 ^ w) →
    ∀ y ∈ mapBlocks f ws, y < 2 ^ w
  | [], h => h
  | [_], h => h
  | a :: b :: _, h => by
    simp only [mapBlocks, List.forall_mem_cons] at h ⊢
    obtain ⟨-, -, hrest⟩ := h
    obtain ⟨ha, hb⟩ := hf (a, b)
    exact ⟨ha, hb, mapBlocks_words hf hrest⟩

/-- A transform that undoes another block by block undoes it over a message. -/
theorem mapBlocks_mapBlocks (hgf : ∀ ab, IsBlock w ab → g (f ab) = ab) : ∀ {ws : List Nat}, (∀ y ∈ ws, y < 2 ^ w) →
    mapBlocks g (mapBlocks f ws) = ws
  | [], _ => rfl
  | [_], _ => rfl
  | a :: b :: rest, h => by
    simp only [List.forall_mem_cons] at h
    obtain ⟨ha, hb, hrest⟩ := h
    simp only [mapBlocks, Prod.mk.eta, hgf (a, b) ⟨ha, hb⟩, mapBlocks_mapBlocks hgf hrest]

end words

theorem encMsgWords_words {w r : Nat} {sub msg : List Nat} (hmsg : ∀ y ∈ msg, y < 2 ^ w) :
    ∀ y ∈ encMsgWords w r sub msg, y < 2 ^ w := mapBlocks_words (fun _ => .encBlockWords) hmsg

theorem decMsgWords_encMsgWords {w : Nat} (hw : 0 < w) (r : Nat) {sub msg : List Nat} (hsub : ∀ x ∈ sub, x < 2 ^ w)
    (hmsg : ∀ y ∈ msg, y < 2 ^ w) : decMsgWords w r sub (encMsgWords w r sub msg) = msg :=
  mapBlocks_mapBlocks (fun _ => decBlockWords_encBlockWords hw hsub r) hmsg

/-! ### The message commands -/

theorem State.writeMessageResult_msgHolds (s : State) {out : List Nat} {n : Nat} (hlength : out.length = n) :
    MsgHolds n out (s.writeMessageResult out) :=
  fun k hk => by rw [State.writeMessageResult_msgCell, if_pos (hlength ▸ hk)]

/-- A completion changes STATUS alone. -/
theorem MsgHolds.complete {s : State} {n : Nat} {ws : List Nat} (e : ErrCode) (h : MsgHolds n ws s) :
    MsgHolds n ws (s.complete e) := h

/-- What a message command leaves when it makes its writes, whichever message `out` it writes (R156, R158). -/
theorem execMessage_results {i : Instr} {s t : State} {out : List Nat} (hi : i = .encMsg ∨ i = .decMsg)
    (hlength : out.length = s.snapM) (h : exec i s = .next t) (ht : t = (s.writeMessageResult out).complete .ok) :
    (SubHolds (2 * (s.snapR + 1)) s.builtSub t ∧ MsgHolds s.snapM out t) ∧ MagicIs s.snapW t ∧
      SchedIs .ready s.snapW s.snapR t ∧ t.status = completedStatus .ok s.status ∧
      SameSubFrom (2 * (s.snapR + 1)) s t ∧ SameMsgFrom s.snapM s t ∧ SameBlock s t ∧ SameOutsideEngine s t := by
  subst ht
  have hmsg := s.writeMessageResult_msgHolds hlength
  obtain ⟨hsub, hmagic, hsched⟩ := s.writeSchedule_results (s.writeMsg out) .ready s.builtSub_length
  obtain rfl | rfl := hi <;>
    exact ⟨⟨hsub.complete .ok, hmsg.complete .ok⟩, hmagic.complete .ok, hsched.complete .ok, exec_status h,
      exec_sameSubFrom h, exec_sameMsgFrom h, exec_sameBlock h nofun nofun, exec_sameOutsideEngine h⟩

/-- Settles O43: the error clause is the rule's table, the other the writes of a message command. -/
theorem encMsgEncryptsInPlace : Obligations.EncMsgEncryptsInPlace := by
  refine ⟨by decide, fun s => ⟨exec_of_ruleError rfl, fun hwidth hrounds hmessage hkey => ?_⟩⟩
  have h := exec_of_operandsLegal (i := .encMsg) (s := s) ⟨hwidth, hrounds, hmessage, hkey⟩
  exact ⟨_, h, execMessage_results (.inl rfl) (by simp) h rfl⟩

/-- Settles O44: the error clause is the rule's table, the other the writes of a message command. -/
theorem decMsgDecryptsInPlace : Obligations.DecMsgDecryptsInPlace := by
  refine ⟨by decide, fun s => ⟨exec_of_ruleError rfl, fun hwidth hrounds hmessage hkey => ?_⟩⟩
  have h := exec_of_operandsLegal (i := .decMsg) (s := s) ⟨hwidth, hrounds, hmessage, hkey⟩
  exact ⟨_, h, execMessage_results (.inr rfl) (by simp) h rfl⟩

/-! ### The round trip of a message -/

theorem State.msgWords_getD (s : State) (w : Nat) {m k : Nat} (hk : k < m) :
    (s.msgWords w m).getD k 0 = wordOf w (s.msgCell k) := by
  simp [State.msgWords, hk]

/-- A message that was written is read back word by word (R41). -/
theorem MsgHolds.wordOf_msgCell {s : State} {w n k : Nat} {ws : List Nat} (h : MsgHolds n ws s) (hw : w ≤ 64)
    (hwords : ∀ y ∈ ws, y < 2 ^ w) (hk : k < n) : wordOf w (s.msgCell k) = ws.getD k 0 := by
  rw [h k hk, wordOf_zext64 hw (getD_lt_of_words hwords k)]

theorem MsgHolds.msgWords_eq {s : State} {w n : Nat} {ws : List Nat} (h : MsgHolds n ws s) (hlength : ws.length = n)
    (hw : w ≤ 64) (hwords : ∀ y ∈ ws, y < 2 ^ w) : s.msgWords w n = ws := by
  refine List.ext_getElem (by simp [hlength]) fun k _ hk => ?_
  have hkn : k < n := hlength ▸ hk
  rw [← List.getD_eq_getElem _ 0, ← List.getD_eq_getElem _ 0, s.msgWords_getD w hkn, h.wordOf_msgCell hw hwords hkn]

theorem MsgHolds.congr {s u : State} {n : Nat} {ws : List Nat} (h : MsgHolds n ws s)
    (hcells : ∀ k, k < n → u.msgCell k = s.msgCell k) : MsgHolds n ws u :=
  fun k hk => (hcells k hk).trans (h k hk)

/-- A built schedule depends on the captured CFG and on the key cells it counts (R122, R125). -/
theorem State.builtSub_congr {s u : State} (hsnap : u.snap = s.snap)
    (hkey : ∀ j, j < s.snapC → u.keyCell j = s.keyCell j) : u.builtSub = s.builtSub := by
  rw [State.builtSub, State.builtSub, State.snapW_congr hsnap, State.snapR_congr hsnap, State.snapC_congr hsnap,
    State.keyWords_congr fun j hj => congrArg _ (hkey j hj)]

theorem State.builtSub_words {s : State} (h : WidthLegal s) : ∀ y ∈ s.builtSub, y < 2 ^ s.snapW :=
  buildWords_words h.1 _ _

/-- DEC_MSG on `u` undoes ENC_MSG on `s`, when `u` holds the message that
ENC_MSG wrote, the same captured CFG and the same key cells (R159). -/
theorem decMsgWords_of_encMsg_msgHolds {s u : State} (hwidth : WidthLegal s) (hw : s.snapW ≤ 64)
    (hsnap : u.snap = s.snap) (hkey : ∀ j, j < s.snapC → u.keyCell j = s.keyCell j)
    (hmsg : MsgHolds s.snapM (encMsgWords s.snapW s.snapR s.builtSub (s.msgWords s.snapW s.snapM)) u) :
    decMsgWords u.snapW u.snapR u.builtSub (u.msgWords u.snapW u.snapM) = s.msgWords s.snapW s.snapM := by
  have hwords := s.msgWords_words s.snapW s.snapM
  rw [State.snapW_congr hsnap, State.snapR_congr hsnap, State.snapM_congr hsnap, State.builtSub_congr hsnap hkey,
    hmsg.msgWords_eq (by simp) hw (encMsgWords_words hwords),
    decMsgWords_encMsgWords hwidth.1 _ (State.builtSub_words hwidth) hwords]

/-- ENC_MSG and DEC_MSG ask the same of the parameters and the captured CFG, and nothing else (R158). -/
theorem decMsg_operandsLegal_of_encMsg {s u : State} (hparams : u.params = s.params) (hsnap : u.snap = s.snap)
    (h : OperandsLegal .encMsg s) : OperandsLegal .decMsg u := by
  simpa only [OperandsLegal, WidthLegal, RoundsLegal, MessageLegal, KeyLegal, hparams, State.snapW_congr hsnap,
    State.snapR_congr hsnap, State.snapC_congr hsnap, State.snapM_congr hsnap] using h

/-- Settles O45: DEC_MSG builds the same schedule and reads back the words ENC_MSG wrote, so the message it writes is
the one before both. -/
theorem messageRoundTrip : Obligations.MessageRoundTrip := by
  intro s hwf hwidth hrounds hmessage hkey
  obtain ⟨-, hwmax, -⟩ := (paramsWellFormed_iff s.params).1 hwf
  have hw : s.snapW ≤ 64 := hwidth.2.trans hwmax
  have hlegal : OperandsLegal .encMsg s := ⟨hwidth, hrounds, hmessage, hkey⟩
  refine ⟨_, exec_of_operandsLegal hlegal, rfl, fun u hparams hsnap hkeys hcells => ?_⟩
  have henc := ((s.writeMessageResult_msgHolds (by simp)).complete .ok).congr hcells
  have hdec := decMsgWords_of_encMsg_msgHolds hwidth hw hsnap hkeys henc
  refine ⟨_, exec_of_operandsLegal (decMsg_operandsLegal_of_encMsg hparams hsnap hlegal), rfl, fun k hk => ?_⟩
  have hmsg : MsgHolds s.snapM (s.msgWords s.snapW s.snapM) (writesOf .decMsg u) := by
    rw [writesOf, hdec]
    exact u.writeMessageResult_msgHolds (by simp)
  exact (hmsg.wordOf_msgCell hw (s.msgWords_words _ _) hk).trans (s.msgWords_getD s.snapW hk)

end Sys2Proof.Machine
end

section
/-! PROOFS of 44_control.md. The engine's turn (R173, R176), runs of steps, the start of a command and the runs from a
start to its completion (R170 to R172), completions that end with an error (R175), and what the host's accesses in the
busy window leave to a completion (R174). -/

namespace Sys2Proof.Machine

open Sys2Proof

/-! ### The engine's turn -/

theorem completion_of_decode_ok {s : State} {i : Instr} (h : decode s.curCmd = .ok i) : completion s = exec i s := by
  unfold completion
  rw [h]

theorem completion_of_decode_error {s : State} {r : DecodeReject} (h : decode s.curCmd = .error r) :
    completion s = .next (s.complete .illegalCommand) := by
  unfold completion
  rw [h]
  rfl

/-- R172: an illegal word completes with its own error code. -/
theorem completion_of_illegal {s : State}
    (h : s.curCmd.extractLsb' 8 56 ≠ 0#56 ∨ 9 ≤ (s.curCmd.extractLsb' 0 8).toNat) :
    completion s = .next (s.complete .illegalCommand) := by
  obtain ⟨_, hr⟩ := decode_of_illegal h
  exact completion_of_decode_error hr

section engineHasTheTurn

variable {s u : State} (h : EngineHasTheTurn s u)

include h

theorem EngineHasTheTurn.status_eq : u.status = s.status := by
  obtain ⟨_, _, rfl⟩ := h.form
  rfl

theorem EngineHasTheTurn.curCmd_eq : u.curCmd = s.curCmd := by
  obtain ⟨_, _, rfl⟩ := h.form
  rfl

/-- R176: the engine's turn completes the command in flight. -/
theorem step_of_busy_turn (hbusy : s.status.busy = true) : step s = completion u := by
  rw [step_of_engine_turn h, engineTurn, if_pos (h.status_eq ▸ hbusy)]

/-- R198: the engine does nothing while idle. -/
theorem step_of_idle_turn (hidle : s.status.busy = false) : step s = .next u := by
  rw [step_of_engine_turn h, engineTurn, h.status_eq, hidle]
  rfl

end engineHasTheTurn

/-- Settles O3: the engine's turn while busy is a completion, which is `exec` of the decoded command. -/
theorem stepRunsTheDecodedCommand : Obligations.StepRunsTheDecodedCommand := fun _ _ h =>
  ⟨fun _ hbusy hdecode =>
    (step_of_busy_turn h hbusy).trans (completion_of_decode_ok ((congrArg decode h.curCmd_eq).trans hdecode)),
    step_of_idle_turn h⟩

/-! ### Runs of steps -/

theorem RunsTo.refl (s : State) : RunsTo 0 s s := rfl

theorem RunsTo.cons {n : Nat} {s m t : State} (h : step s = .next m) (hrun : RunsTo n m t) : RunsTo (n + 1) s t :=
  (run_succ n h).trans hrun

theorem RunsTo.one {s t : State} (h : step s = .next t) : RunsTo 1 s t := .cons h (.refl t)

/-! ### The start of a command -/

section start

variable {s : State} {a : Addr} {v : Cell} {rest : List Turn}

/-- R170: a write to CMD while idle starts the command of its word. -/
theorem step_of_cmd_write (hturns : s.turns = .write a v :: rest) (ha : a.toNat / 8 * 8 = 0x20)
    (hidle : s.status.busy = false) : step s = .next (State.startCommand v { s with turns := rest }) := by
  rw [step_of_effective_write hturns (.inl hidle), targetOf_of_slot 4 ha]
  rfl

/-- R68: a write to CMD while busy is dropped. -/
theorem step_of_dropped_cmd_write (hturns : s.turns = .write a v :: rest) (ha : a.toNat / 8 * 8 = 0x20)
    (hbusy : s.status.busy = true) :
    step s = .next { s with turns := rest, status := { s.status with wovr := true } } :=
  step_of_dropped_write hturns hbusy (by rw [targetOf_of_slot 4 ha]; rfl)

/-- The run of a command from its start to its completion, when the engine has the turn after the write to CMD. -/
theorem runsTo_of_cmd_write {u t : State} (hturns : s.turns = .write 0x20#19 v :: rest)
    (hidle : s.status.busy = false) (hturn : EngineHasTheTurn (State.startCommand v { s with turns := rest }) u)
    (hc : completion u = .next t) : RunsTo 2 s t :=
  .cons (step_of_cmd_write hturns (by decide) hidle) (.one ((step_of_busy_turn hturn rfl).trans hc))

end start

/-- Settles O4: the two outcomes of a write to the CMD cell. -/
theorem cmdWriteStartsACommand : Obligations.CmdWriteStartsACommand := fun _ _ _ _ hturns ha =>
  ⟨step_of_cmd_write hturns ha, step_of_dropped_cmd_write hturns ha⟩

/-! ### Illegal words and NOP -/

/-- Settles O6: the run from the start to the completion, with the engine's turn listed or the next batch after it. -/
theorem illegalWordCompletesWithCode3 : Obligations.IllegalWordCompletesWithCode3 := by
  rintro s v rest later hidle hillegal (⟨hturns, rfl⟩ | ⟨hturns, rfl, rfl⟩)
  · exact runsTo_of_cmd_write hturns hidle (.inl ⟨rest, rfl, rfl⟩) (completion_of_illegal hillegal)
  · exact runsTo_of_cmd_write hturns hidle (.inr ⟨rfl, rfl⟩) (completion_of_illegal hillegal)

/-- R171: NOP has no check and no write. -/
theorem exec_nop (s : State) : exec .nop s = .next (s.complete .ok) := finishWith_none s s firstError_nil

theorem completion_of_nop {s : State} (h : s.curCmd = 0#64) : completion s = .next (s.complete .ok) :=
  (completion_of_decode_ok (h ▸ decode_encode .nop)).trans (exec_nop s)

/-- Settles O46: the completion of NOP, and the run that ends with it. -/
theorem nopOnlyCompletes : Obligations.NopOnlyCompletes := by
  refine ⟨rfl, exec_nop, fun s rest hidle hturns => ?_⟩
  exact runsTo_of_cmd_write hturns hidle (.inl ⟨rest, rfl, rfl⟩) (completion_of_nop rfl)

/-! ### Completions with an error -/

theorem exists_engineHasTheTurn {s : State} (h : s.turns = [] ∨ ∃ rest, s.turns = .engine :: rest) :
    ∃ u, EngineHasTheTurn s u := by
  obtain h | ⟨rest, h⟩ := h
  · exact ⟨_, .inr ⟨h, rfl⟩⟩
  · exact ⟨_, .inl ⟨rest, h, rfl⟩⟩

/-- R175: a completion with an error makes no write. -/
theorem completion_of_err_ne_ok {s t : State} (h : completion s = .next t) (herr : t.status.err ≠ .ok) :
    ∃ e, t = s.complete e := by
  obtain ⟨u, e, rfl, -, hsame⟩ := completion_form h
  obtain rfl := hsame herr
  exact ⟨e, rfl⟩

/-- Settles O48: a command that ends with an error made none of its writes, so only its completion is left. -/
theorem errorsChangeOnlyStatus : Obligations.ErrorsChangeOnlyStatus := by
  refine ⟨fun i s t h herr => ?_, fun s t h hbusy hturns herr => ?_⟩
  · obtain ⟨e, -, rfl⟩ | ⟨-, rfl⟩ := exec_cases h
    · rfl
    · exact absurd rfl herr
  · obtain ⟨u, hturn⟩ := exists_engineHasTheTurn hturns
    have hc : completion u = .next t := (step_of_busy_turn hturn hbusy).symm.trans h
    obtain ⟨e, rfl⟩ := completion_of_err_ne_ok hc herr
    obtain ⟨turns, later, rfl⟩ := hturn.form
    rfl

/-! ### The engine's data -/

theorem SameEngineData.refl (s : State) : SameEngineData s s :=
  ⟨rfl, rfl, rfl, rfl, rfl, rfl, rfl, rfl, rfl, rfl, rfl, rfl⟩

/-- The engine's data of `s` with the rest of the state, CTRL, STATUS and the model's own fields, from `o`. -/
def State.withHostSide (s o : State) : State :=
  { s with
    ie := o.ie
    status := o.status
    turns := o.turns
    later := o.later
    readData := o.readData
    draws := o.draws }

theorem SameEngineData.eq_withHostSide {s t : State} (h : SameEngineData s t) : t = s.withHostSide t := by
  cases s
  cases t
  obtain ⟨rfl, rfl, rfl, rfl, rfl, rfl, rfl, rfl, rfl, rfl, rfl, rfl⟩ := h
  rfl

theorem State.withHostSide_sameEngineData (s o : State) : SameEngineData s (s.withHostSide o) := .refl s

theorem SameEngineData.trans {s t u : State} (hst : SameEngineData s t) (htu : SameEngineData t u) :
    SameEngineData s u := by
  rw [htu.eq_withHostSide, hst.eq_withHostSide]
  exact s.withHostSide_sameEngineData u

/-! ### The busy window -/

/-- What a host access in the busy window leaves as it was: the engine's data, and of STATUS the fields BUSY and LASTOP
(R68, R174). -/
def SameInWindow (s t : State) : Prop :=
  SameEngineData s t ∧ t.status.busy = s.status.busy ∧ t.status.lastop = s.status.lastop

theorem SameInWindow.refl (s : State) : SameInWindow s s := ⟨.refl s, rfl, rfl⟩

theorem SameInWindow.busy_eq {s t : State} (h : SameInWindow s t) : t.status.busy = s.status.busy := by
  obtain ⟨-, hbusy, -⟩ := h
  exact hbusy

theorem SameInWindow.trans {s t u : State} (hst : SameInWindow s t) (htu : SameInWindow t u) : SameInWindow s u := by
  obtain ⟨hdata, hbusy, hlastop⟩ := hst
  obtain ⟨hdata', hbusy', hlastop'⟩ := htu
  exact ⟨hdata.trans hdata', hbusy'.trans hbusy, hlastop'.trans hlastop⟩

theorem State.hostRead_sameInWindow (a : Addr) (s : State) : SameInWindow s (s.hostRead a) := by
  obtain ⟨_, _, h⟩ := s.hostRead_form a
  rw [h]
  exact .refl s

/-- A write that the busy window lets through reaches CTRL, the W1C bits of STATUS, or nothing. -/
theorem State.writeTarget_sameInWindow (v : Cell) (s : State) {x : Target} (h : droppedWhileBusy x = false) :
    SameInWindow s (s.writeTarget v x) := by
  cases x
  case cfg | cmd | dataL | dataR | key | msg => cases h
  all_goals exact .refl s

theorem State.hostWrite_sameInWindow (a : Addr) (v : Cell) {s : State} (hbusy : s.status.busy = true) :
    SameInWindow s (s.hostWrite a v) := by
  obtain ⟨-, -, h⟩ | ⟨hnot, h⟩ := s.hostWrite_cases a v <;> rw [h]
  · exact .refl s
  · exact s.writeTarget_sameInWindow v (by simpa [hbusy] using hnot)

theorem State.writeTarget_turns (v : Cell) (s : State) (x : Target) : (s.writeTarget v x).turns = s.turns := by
  cases x <;> rfl

theorem State.hostWrite_turns (a : Addr) (v : Cell) (s : State) : (s.hostWrite a v).turns = s.turns := by
  obtain ⟨-, -, h⟩ | ⟨-, h⟩ := s.hostWrite_cases a v <;> rw [h]
  · rfl
  · exact s.writeTarget_turns v _

/-- A step that takes a host access in the busy window. -/
theorem step_of_hostAccess {s : State} {x : Turn} {rest : List Turn} (hturns : s.turns = x :: rest)
    (hx : isHostAccess x = true) (hbusy : s.status.busy = true) :
    ∃ t : State, step s = .next t ∧ SameInWindow s t ∧ t.turns = rest := by
  rw [step_of_turns_cons hturns]
  cases x with
  | read a =>
    obtain ⟨_, _, h⟩ := State.hostRead_form a { s with turns := rest }
    exact ⟨_, rfl, State.hostRead_sameInWindow a { s with turns := rest }, by rw [h]⟩
  | write a v =>
    exact ⟨_, rfl, State.hostWrite_sameInWindow a v (s := { s with turns := rest }) hbusy, State.hostWrite_turns ..⟩
  | engine | reset => cases hx

/-- A run through host accesses in the busy window, up to the step that follows them. -/
theorem runsTo_of_hostAccesses {accesses after : List Turn} (hhost : ∀ x ∈ accesses, isHostAccess x = true)
    {s : State} (hbusy : s.status.busy = true) (hturns : s.turns = accesses ++ after) :
    ∃ m : State, SameInWindow s m ∧ m.turns = after ∧
      ∀ t, step m = .next t → RunsTo (accesses.length + 1) s t := by
  induction accesses generalizing s with
  | nil => exact ⟨s, .refl s, hturns, fun _ => .one⟩
  | cons x accesses ih =>
    obtain ⟨hx, hhost⟩ := List.forall_mem_cons.1 hhost
    obtain ⟨s', hstep, hsame, hturns'⟩ := step_of_hostAccess hturns hx hbusy
    have hbusy' : s'.status.busy = true := hsame.busy_eq.trans hbusy
    obtain ⟨m, hm, hafter, hrun⟩ := ih hhost hbusy' hturns'
    exact ⟨m, hsame.trans hm, hafter, fun t ht => .cons hstep (hrun t ht)⟩

/-! ### A completion depends on the engine's data alone -/

theorem writesOf_withHostSide (i : Instr) (s o : State) :
    writesOf i (s.withHostSide o) = (writesOf i s).withHostSide o := by
  cases i <;> rfl

theorem SameEngineData.writesOf {s m : State} (h : SameEngineData s m) (i : Instr) :
    SameEngineData (writesOf i s) (writesOf i m) := by
  rw [h.eq_withHostSide, writesOf_withHostSide]
  exact State.withHostSide_sameEngineData ..

theorem SameEngineData.checksOf_eq {s m : State} (h : SameEngineData s m) (i : Instr) :
    checksOf i m = checksOf i s := by
  rw [h.eq_withHostSide]
  exact checksOf_congr i rfl rfl rfl

theorem SameEngineData.decode_eq {s m : State} (h : SameEngineData s m) : decode m.curCmd = decode s.curCmd := by
  rw [h.eq_withHostSide]
  rfl

theorem SameShell.status_eq {s u : State} (h : SameShell s u) : u.status = s.status := by
  obtain ⟨-, -, -, hstatus, -⟩ := h
  exact hstatus

theorem SameShell.turns_eq {s u : State} (h : SameShell s u) : u.turns = s.turns := by
  obtain ⟨-, -, -, -, -, -, -, hturns, -⟩ := h
  exact hturns

/-- R174: states with the same engine data complete with the same error and the same engine data. -/
theorem SameEngineData.completion {s m : State} (h : SameEngineData s m) :
    ∃ (d d' : State) (e : ErrCode), completion s = .next (d.complete e) ∧ completion m = .next (d'.complete e) ∧
      SameEngineData d d' ∧ SameShell s d ∧ SameShell m d' := by
  have hword := h.decode_eq
  cases hdecode : decode s.curCmd with
  | error r =>
    exact ⟨s, m, _, completion_of_decode_error hdecode, completion_of_decode_error (hword.trans hdecode), h,
      .refl s, .refl m⟩
  | ok i =>
    rw [completion_of_decode_ok hdecode, completion_of_decode_ok (hword.trans hdecode), exec_eq, exec_eq,
      h.checksOf_eq i]
    cases hfirst : firstError (checksOf i s) with
    | some e =>
      exact ⟨s, m, e, finishWith_error _ _ hfirst, finishWith_error _ _ hfirst, h, .refl s, .refl m⟩
    | none =>
      exact ⟨_, _, .ok, finishWith_none _ _ hfirst, finishWith_none _ _ hfirst, h.writesOf i, writesOf_shell i s,
        writesOf_shell i m⟩

/-- Settles O9: the accesses leave the engine's data as it was, and the completion depends on nothing else. -/
theorem resultDoesNotDependOnInterleaving : Obligations.ResultDoesNotDependOnInterleaving := by
  intro s accesses rest hbusy hhost hturns
  obtain ⟨m, ⟨hdata, hmbusy, hlastop⟩, hmturns, hrun⟩ := runsTo_of_hostAccesses hhost hbusy hturns
  have htaken : SameEngineData { s with turns := rest } { m with turns := rest } := hdata
  obtain ⟨d, d', e, hcs, hcm, hsame, hshell, hshell'⟩ := htaken.completion
  have hfirst : step { s with turns := .engine :: rest } = .next (d.complete e) := by
    rw [← hcs]
    exact step_of_busy_turn (.inl ⟨rest, rfl, rfl⟩) hbusy
  have hlast : step m = .next (d'.complete e) := by
    rw [← hcm]
    exact step_of_busy_turn (.inl ⟨rest, hmturns, rfl⟩) (hmbusy.trans hbusy)
  have hturns' : d'.turns = d.turns := by rw [hshell.turns_eq, hshell'.turns_eq]
  have hlastop' : d'.status.lastop = d.status.lastop := by rw [hshell.status_eq, hshell'.status_eq, hlastop]
  exact ⟨_, _, hrun _ hlast, .one hfirst, hsame, hturns', rfl, rfl, rfl, hlastop'⟩

end Sys2Proof.Machine
end

section
/-! PROOFS of 60_exceptions.md. A command completes with the first error of its row (R180, R184), and no step stops
(R186). -/

namespace Sys2Proof.Machine

open Sys2Proof

/-! ### The error a completion reports -/

/-- R173, R176: a command completes whatever its checks say, with the first error that applies. -/
theorem finishWith_err (checks : List (Bool × ErrCode)) (written s : State) :
    ∃ t : State, finishWith checks written s = .next t ∧ t.status.err = (firstError checks).getD .ok := by
  cases h : firstError checks with
  | some e => exact ⟨_, finishWith_error written s h, rfl⟩
  | none => exact ⟨_, finishWith_none written s h, rfl⟩

/-- R184: each command reports the error of its row. -/
theorem exec_err (i : Instr) (s : State) : ∃ t : State, exec i s = .next t ∧ t.status.err = ruleError i s := by
  rw [exec_eq, ruleError_eq]
  exact finishWith_err ..

/-- R172: the engine's turn with an illegal word in flight reports ILLEGAL_COMMAND. -/
theorem step_of_illegal {s u : State} (hturn : EngineHasTheTurn s u) (hbusy : s.status.busy = true)
    (hillegal : s.curCmd.extractLsb' 8 56 ≠ 0#56 ∨ 9 ≤ (s.curCmd.extractLsb' 0 8).toNat) :
    step s = .next (u.complete .illegalCommand) :=
  (step_of_busy_turn hturn hbusy).trans (completion_of_illegal (hturn.curCmd_eq.symm ▸ hillegal))

/-- R180: the codes of the table end at 8. -/
theorem codeOf_le (e : ErrCode) : (codeOf e).toNat ≤ 8 := by
  cases e <;> decide

/-- Settles O47: the checks of each command are its row of the table, and the first that applies is reported. -/
theorem firstErrorInTheRuleOrder : Obligations.FirstErrorInTheRuleOrder := by
  refine ⟨exec_err, fun s rest hbusy hturns hillegal => ?_, rfl, rfl, rfl, rfl, rfl, rfl, rfl, rfl, rfl, codeOf_le⟩
  obtain ⟨u, hturn⟩ := exists_engineHasTheTurn (hturns.symm.imp_right fun h => ⟨rest, h⟩)
  exact ⟨_, step_of_illegal hturn hbusy hillegal, rfl⟩

/-! ### No step stops -/

/-- R173: the command in flight completes, whether its word decodes or not. -/
theorem exists_completion (s : State) : ∃ t : State, completion s = .next t := by
  cases hdecode : decode s.curCmd with
  | error r => exact ⟨_, completion_of_decode_error hdecode⟩
  | ok i =>
    obtain ⟨t, ht, -⟩ := exec_err i s
    exact ⟨t, (completion_of_decode_ok hdecode).trans ht⟩

theorem exists_engineTurn (s : State) : ∃ t : State, engineTurn s = .next t := by
  unfold engineTurn
  split
  · exact exists_completion s
  · exact ⟨s, rfl⟩

theorem exists_takeTurn (x : Turn) (s : State) : ∃ t : State, takeTurn x s = .next t := by
  cases x with
  | engine => exact exists_engineTurn s
  | read a => exact ⟨_, rfl⟩
  | write a v => exact ⟨_, rfl⟩
  | reset => exact ⟨_, rfl⟩

/-- Settles O7: an access or a reset always has its effect, and the engine's turn completes a command or does
nothing. -/
theorem stepNeverStops : Obligations.StepNeverStops := by
  intro s
  cases hturns : s.turns with
  | nil =>
    rw [step_of_turns_nil hturns]
    exact exists_engineTurn s.nextBatch
  | cons x rest =>
    rw [step_of_turns_cons hturns]
    exact exists_takeTurn x { s with turns := rest }

end Sys2Proof.Machine
end

section
/-! PROOFS of 70_reset_and_hazards.md. The reset event and power-on (R210, R211), what the host sees of a command that
has started (R222), the interrupt (R226), and the turns taken one by one, fairly (R228). -/

namespace Sys2Proof.Machine

open Sys2Proof

/-! ### Reset -/

theorem schedWord_atReset : schedWord Sched.atReset = 0#64 := by decide

theorem State.statusWord_of_atReset {s : State} (hstatus : s.status = Status.atReset) (hie : s.ie = false) :
    s.statusWord = 0#64 := by
  rw [State.statusWord, State.irq, hstatus, hie]
  decide

/-- Settles O18: each register's value in the power-on state. -/
theorem resetLeavesTheSpecifiedValues : Obligations.ResetLeavesTheSpecifiedValues :=
  ⟨rfl, fun _ => ⟨rfl, rfl, rfl, rfl, rfl, rfl, rfl, rfl, rfl, rfl, rfl, schedWord_atReset,
    State.statusWord_of_atReset rfl rfl, rfl, rfl, rfl, rfl⟩⟩

theorem step_of_reset {s : State} {rest : List Turn} (hturns : s.turns = .reset :: rest) :
    step s = .next (State.resetEvent { s with turns := rest }) :=
  step_of_turns_cons hturns

theorem State.resetEvent_keyCell (s : State) (k : Nat) : s.resetEvent.keyCell k = s.keyCell k :=
  State.keyCell_congr rfl k

theorem State.resetEvent_subCell (s : State) (k : Nat) :
    s.resetEvent.subCell k = if k < s.lostSub then Config.lostCell .sub s.draws k else s.subCell k :=
  Memory.cell_lose ..

theorem State.resetEvent_msgCell (s : State) (k : Nat) :
    s.resetEvent.msgCell k = if k < s.lostMsg then Config.lostCell .msg s.draws k else s.msgCell k :=
  Memory.cell_lose ..

theorem State.resetEvent_sameSubFrom {s : State} {n : Nat} (h : s.lostSub ≤ n) : SameSubFrom n s s.resetEvent :=
  fun k hk => by rw [State.resetEvent_subCell, if_neg (by omega)]

theorem State.resetEvent_sameMsgFrom {s : State} {n : Nat} (h : s.lostMsg ≤ n) : SameMsgFrom n s s.resetEvent :=
  fun k hk => by rw [State.resetEvent_msgCell, if_neg (by omega)]

/-- A reset with no command in flight that decodes loses no RAM cell. -/
theorem State.lost_eq_zero {s : State} (h : s.status.busy = false ∨ ∃ r, decode s.curCmd = .error r) :
    s.lostSub = 0 ∧ s.lostMsg = 0 := by
  obtain hidle | ⟨r, hr⟩ := h
  · simp [State.lostSub, State.lostMsg, hidle]
  · simp [State.lostSub, State.lostMsg, hr]

/-- A reset loses the RAM cells that the command in flight could write, those of them there are (log 6). -/
theorem State.lost_eq_min {s : State} {i : Instr} (hbusy : s.status.busy = true) (hdecode : decode s.curCmd = .ok i) :
    s.lostSub = min (s.subCellsOf i) s.params.smax ∧ s.lostMsg = min (s.msgCellsOf i) s.params.mmax := by
  simp [State.lostSub, State.lostMsg, hbusy, hdecode]

/-- R210: with no command in flight that decodes, a reset keeps every S and MSG cell. -/
theorem State.resetEvent_keeps_rams {s : State} (h : s.status.busy = false ∨ ∃ r, decode s.curCmd = .error r) :
    SameSubFrom 0 s s.resetEvent ∧ SameMsgFrom 0 s s.resetEvent := by
  obtain ⟨hsub, hmsg⟩ := State.lost_eq_zero h
  exact ⟨State.resetEvent_sameSubFrom hsub.le, State.resetEvent_sameMsgFrom hmsg.le⟩

/-- R210: with a command in flight, a reset gives the cells it could write free values and keeps all others. -/
theorem State.resetEvent_loses_written {s : State} {i : Instr} (hbusy : s.status.busy = true)
    (hdecode : decode s.curCmd = .ok i) :
    SameSubFrom (s.subCellsOf i) s s.resetEvent ∧ SameMsgFrom (s.msgCellsOf i) s s.resetEvent ∧
      (∀ k, k < s.subCellsOf i → k < s.params.smax →
        s.resetEvent.subCell k = Config.lostCell .sub s.draws k) ∧
      (∀ k, k < s.msgCellsOf i → k < s.params.mmax →
        s.resetEvent.msgCell k = Config.lostCell .msg s.draws k) := by
  obtain ⟨hsub, hmsg⟩ := State.lost_eq_min hbusy hdecode
  refine ⟨State.resetEvent_sameSubFrom (by omega), State.resetEvent_sameMsgFrom (by omega), fun k hk hsize => ?_,
    fun k hk hsize => ?_⟩
  · rw [State.resetEvent_subCell, if_pos (by omega)]
  · rw [State.resetEvent_msgCell, if_pos (by omega)]

/-- Settles O19: the registers by the reset event itself, the RAM cells by what it loses. -/
theorem resetEventKeepsTheRams : Obligations.ResetEventKeepsTheRams := by
  intro s rest hturns
  refine ⟨_, step_of_reset hturns, rfl, rfl, rfl, rfl, State.statusWord_of_atReset rfl rfl, rfl, rfl, rfl, rfl,
    schedWord_atReset, rfl, rfl, rfl, State.resetEvent_keyCell { s with turns := rest }, fun hidle => ?_,
    fun _ hillegal => ?_, fun i hbusy hdecode => ?_⟩
  · exact State.resetEvent_keeps_rams (s := { s with turns := rest }) (.inl hidle)
  · exact State.resetEvent_keeps_rams (s := { s with turns := rest }) (.inr (decode_of_illegal hillegal))
  · intro n m
    have hn : n = s.subCellsOf i := by cases i <;> rfl
    have hm : m = s.msgCellsOf i := by cases i <;> rfl
    rw [hn, hm]
    exact State.resetEvent_loses_written (s := { s with turns := rest }) hbusy hdecode

/-! ### What the host sees of a started command -/

/-- Settles O5: the start raises BUSY, which is bit 0 of the STATUS word the read returns. -/
theorem busyIsVisibleAtOnce : Obligations.BusyIsVisibleAtOnce := by
  intro s v rest hidle hturns
  have hstart := step_of_cmd_write hturns (by decide) hidle
  have htarget : targetOf s.params 0x28#19 = .status := targetOf_of_slot 5 (by decide)
  have hread := step_of_defined_read (s := State.startCommand v { s with turns := .read 0x28#19 :: rest }) rfl
    (.inr (congrArg hiddenWhileBusy htarget))
  refine ⟨_, _, .cons hstart (.one hread), rfl, ?_⟩
  obtain ⟨hbusy, -⟩ := statusWord_fields (State.startCommand v { s with turns := .read 0x28#19 :: rest })
  exact (congrArg (fun x => (State.readTarget _ x).getLsbD 0) htarget).trans hbusy

/-! ### The interrupt -/

/-- The turns that acknowledge the interrupt: a reset, a write of 1 to STATUS.DONE or of 0 to CTRL.IE, and the start of
a command (R226). -/
def State.LowersIrq (s : State) : Turn → Prop
  | .engine => False
  | .read _ => False
  | .write a v =>
    (targetOf s.params a = .status ∧ v.getLsbD 1 = true) ∨ (targetOf s.params a = .ctrl ∧ v.getLsbD 0 = false) ∨
      (targetOf s.params a = .cmd ∧ s.status.busy = false)
  | .reset => True

theorem State.lowersIrq_headD_iff (s : State) :
    s.LowersIrq (s.turns.headD .engine) ↔
      (∃ rest, s.turns = .reset :: rest) ∨ ∃ a v rest, s.turns = .write a v :: rest ∧ s.LowersIrq (.write a v) := by
  cases s.turns with
  | nil => simp [State.LowersIrq]
  | cons x rest => cases x <;> simp [State.LowersIrq]

theorem State.irq_eq_true_iff (s : State) : s.irq = true ↔ s.status.done = true ∧ s.ie = true :=
  Bool.and_eq_true_iff

theorem EngineHasTheTurn.headD_eq {s u : State} (h : EngineHasTheTurn s u) : s.turns.headD .engine = .engine := by
  obtain ⟨rest, h, -⟩ | ⟨h, -⟩ := h <;> rw [h] <;> rfl

/-- A completion raises DONE and keeps IE. -/
theorem completion_irq {s t : State} (h : completion s = .next t) : t.irq = s.ie := by
  obtain ⟨u, e, rfl, ⟨-, hie, -⟩, -⟩ := completion_form h
  simp [State.irq, hie]

theorem State.hostRead_irq (a : Addr) (s : State) : (s.hostRead a).irq = s.irq := by
  obtain ⟨_, _, h⟩ := s.hostRead_form a
  rw [h]
  rfl

/-- Of the writes that take effect, those to STATUS.DONE, to CTRL.IE and to CMD reach the interrupt. -/
theorem State.writeTarget_irq_iff {s : State} (hirq : s.irq = true) (v : Cell) (x : Target) :
    (s.writeTarget v x).irq = false ↔
      (x = .status ∧ v.getLsbD 1 = true) ∨ (x = .ctrl ∧ v.getLsbD 0 = false) ∨ x = .cmd := by
  obtain ⟨hdone, hie⟩ := s.irq_eq_true_iff.1 hirq
  cases x <;> simp [State.writeTarget, State.irq, hdone, hie]

theorem State.hostWrite_irq_iff {s : State} (hirq : s.irq = true) (a : Addr) (v : Cell) :
    (s.hostWrite a v).irq = false ↔ s.LowersIrq (.write a v) := by
  obtain ⟨hbusy, hdropped, h⟩ | ⟨hnot, h⟩ := s.hostWrite_cases a v <;> rw [h]
  · refine iff_of_false (ne_of_eq_of_ne hirq nofun) ?_
    rintro (⟨htarget, -⟩ | ⟨htarget, -⟩ | ⟨-, hidle⟩)
    · simp [htarget, droppedWhileBusy] at hdropped
    · simp [htarget, droppedWhileBusy] at hdropped
    · simp [hbusy] at hidle
  · have hidle : targetOf s.params a = .cmd → s.status.busy = false := fun htarget => by
      simpa [htarget, droppedWhileBusy] using hnot
    rw [State.writeTarget_irq_iff hirq, State.LowersIrq, and_iff_left_of_imp hidle]

/-- R226: once high, the interrupt falls exactly at a turn that acknowledges it. -/
theorem step_irq_iff {s t : State} (h : step s = .next t) (hirq : s.irq = true) :
    t.irq = false ↔ s.LowersIrq (s.turns.headD .engine) := by
  obtain ⟨-, hie⟩ := s.irq_eq_true_iff.1 hirq
  have hhigh : ¬ s.irq = false := by simp [hirq]
  obtain ⟨_, _, hturn, ⟨-, hc⟩ | ⟨-, rfl⟩⟩ | ⟨a, rest, hturns, rfl⟩ | ⟨a, v, rest, hturns, rfl⟩ |
    ⟨rest, hturns, rfl⟩ := step_cases h
  case inl.inl =>
    rw [completion_irq hc, hturn.headD_eq]
    exact iff_of_false (by simp [hie]) id
  case inl.inr =>
    rw [hturn.headD_eq]
    exact iff_of_false hhigh id
  case inr.inl =>
    rw [State.hostRead_irq, hturns]
    exact iff_of_false hhigh id
  case inr.inr.inl =>
    rw [hturns]
    exact State.hostWrite_irq_iff (s := { s with turns := rest }) hirq a v
  case inr.inr.inr =>
    rw [hturns]
    exact iff_of_true rfl trivial

/-- Settles O16: the turns that acknowledge the interrupt, as first turns of the list. -/
theorem irqStaysUntilAcknowledged : Obligations.IrqStaysUntilAcknowledged := fun s _ h =>
  ⟨rfl, fun hirq => (step_irq_iff h hirq).trans s.lowersIrq_headD_iff⟩

/-! ### A started command ends -/

/-- R176: the engine's turn with a command in flight leaves the engine idle. -/
theorem exists_idle_of_busy_turn {s u : State} (hturn : EngineHasTheTurn s u) (hbusy : s.status.busy = true) :
    ∃ t : State, step s = .next t ∧ t.status.busy = false := by
  obtain ⟨t, ht⟩ := exists_completion u
  obtain ⟨_, _, rfl, -⟩ := completion_form ht
  exact ⟨_, (step_of_busy_turn hturn hbusy).trans ht, rfl⟩

/-- A listed turn ends the command in flight, or it is taken and leaves the engine busy. -/
theorem step_of_busy_cons {s : State} {x : Turn} {rest : List Turn} (hturns : s.turns = x :: rest)
    (hbusy : s.status.busy = true) :
    ∃ t : State, step s = .next t ∧ (t.status.busy = false ∨ t.status.busy = true ∧ t.turns = rest) := by
  cases x with
  | engine =>
    obtain ⟨t, ht, hidle⟩ := exists_idle_of_busy_turn (.inl ⟨rest, hturns, rfl⟩) hbusy
    exact ⟨t, ht, .inl hidle⟩
  | reset => exact ⟨_, step_of_reset hturns, .inl rfl⟩
  | read | write =>
    obtain ⟨t, ht, hsame, hrest⟩ := step_of_hostAccess hturns rfl hbusy
    exact ⟨t, ht, .inr ⟨hsame.busy_eq.trans hbusy, hrest⟩⟩

/-- Settles O8, by induction on the listed turns: when none of them ends the command, the engine's turn follows. -/
theorem commandEventuallyEnds : Obligations.CommandEventuallyEnds := by
  intro s hbusy
  induction hturns : s.turns generalizing s with
  | nil =>
    obtain ⟨t, ht, hidle⟩ := exists_idle_of_busy_turn (.inr ⟨hturns, rfl⟩) hbusy
    exact ⟨1, t, by simp, .one ht, hidle⟩
  | cons x rest ih =>
    obtain ⟨s', hs', hidle | ⟨hbusy', hrest⟩⟩ := step_of_busy_cons hturns hbusy
    · exact ⟨1, s', by simp, .one hs', hidle⟩
    · obtain ⟨n, t, hn, hrun, hidle⟩ := ih s' hbusy' hrest
      exact ⟨n + 1, t, by simpa using hn, .cons hs' hrun, hidle⟩

/-! ### Runs without end -/

/-- The turns to come are as before. -/
def SameQueue (s t : State) : Prop := t.turns = s.turns ∧ t.later = s.later

theorem State.writeTarget_sameQueue (v : Cell) (s : State) (x : Target) : SameQueue s (s.writeTarget v x) := by
  cases x <;> exact ⟨rfl, rfl⟩

theorem State.hostWrite_sameQueue (a : Addr) (v : Cell) (s : State) : SameQueue s (s.hostWrite a v) := by
  obtain ⟨-, -, h⟩ | ⟨-, h⟩ := s.hostWrite_cases a v <;> rw [h]
  · exact ⟨rfl, rfl⟩
  · exact s.writeTarget_sameQueue v _

theorem completion_sameQueue {s t : State} (h : completion s = .next t) : SameQueue s t := by
  obtain ⟨u, e, rfl, ⟨-, -, -, -, -, -, -, hturns, hlater, -⟩, -⟩ := completion_form h
  exact ⟨hturns, hlater⟩

theorem engineTurn_sameQueue {s t : State} (h : engineTurn s = .next t) : SameQueue s t := by
  obtain ⟨-, hc⟩ | ⟨-, rfl⟩ := engineTurn_cases h
  · exact completion_sameQueue hc
  · exact ⟨rfl, rfl⟩

/-- No turn adds to the turns to come, or takes any but itself. -/
theorem takeTurn_sameQueue {x : Turn} {s t : State} (h : takeTurn x s = .next t) : SameQueue s t := by
  cases x with
  | engine => exact engineTurn_sameQueue h
  | read a =>
    cases h
    obtain ⟨_, _, hread⟩ := s.hostRead_form a
    rw [hread]
    exact ⟨rfl, rfl⟩
  | write a v => cases h; exact s.hostWrite_sameQueue a v
  | reset => cases h; exact ⟨rfl, rfl⟩

/-- R228: with no turn listed, the step lists the next batch. -/
theorem step_lists_batch {s : State} (hturns : s.turns = []) :
    ∃ t : State, step s = .next t ∧ t.turns = s.later.batch ∧ t.later = s.later.rest := by
  obtain ⟨t, ht⟩ := exists_engineTurn s.nextBatch
  exact ⟨t, (step_of_turns_nil hturns).trans ht, engineTurn_sameQueue ht⟩

theorem step_takes_turn {s : State} {x : Turn} {rest : List Turn} (hturns : s.turns = x :: rest) :
    ∃ t : State, step s = .next t ∧ t.turns = rest ∧ t.later = s.later := by
  obtain ⟨t, ht⟩ := exists_takeTurn x { s with turns := rest }
  exact ⟨t, (step_of_turns_cons hturns).trans ht, takeTurn_sameQueue ht⟩

/-- A run through the first `k` listed turns takes each of them. -/
theorem runsTo_drop {k : Nat} {s : State} (hk : k ≤ s.turns.length) :
    ∃ t : State, RunsTo k s t ∧ t.turns = s.turns.drop k ∧ t.later = s.later := by
  induction k generalizing s with
  | zero => exact ⟨s, .refl s, rfl, rfl⟩
  | succ k ih =>
    obtain ⟨x, rest, hturns⟩ := List.exists_cons_of_length_pos (Nat.zero_lt_of_lt hk)
    obtain ⟨s', hstep, hrest, hlater⟩ := step_takes_turn hturns
    obtain ⟨t, hrun, hdrop, hlater'⟩ := ih (s := s') (by simpa [hrest, hturns] using hk)
    exact ⟨t, .cons hstep hrun, by simp [hdrop, hrest, hturns], hlater'.trans hlater⟩

theorem RunsTo.trans {n k : Nat} {s m t : State} (hsm : RunsTo n s m) (hmt : RunsTo k m t) : RunsTo (n + k) s t := by
  induction n generalizing s with
  | zero =>
    obtain rfl : s = m := by cases hsm; rfl
    rwa [Nat.zero_add]
  | succ n ih =>
    obtain ⟨s', hstep⟩ := stepNeverStops s
    have hrest : RunsTo n s' m := (run_succ n hstep).symm.trans hsm
    rw [Nat.add_right_comm]
    exact .cons hstep (ih hrest)

section repeated

variable {s : State} {batch : List Turn} (hturns : s.turns = []) (hlater : s.later = .again batch)

include hturns hlater

/-- The engine's turn, and then the first `k` turns of the batch it listed. -/
theorem runsTo_in_batch {k : Nat} (hk : k ≤ batch.length) :
    ∃ t : State, RunsTo (k + 1) s t ∧ t.turns = batch.drop k ∧ t.later = .again batch := by
  obtain ⟨s', hstep, hbatch, hagain⟩ := step_lists_batch hturns
  rw [hlater, Later.batch] at hbatch
  rw [hlater, Later.rest] at hagain
  obtain ⟨t, hrun, hdrop, hlater'⟩ := runsTo_drop (hbatch ▸ hk : k ≤ s'.turns.length)
  exact ⟨t, .cons hstep hrun, hbatch ▸ hdrop, hlater'.trans hagain⟩

/-- One round after another: after each, no turn is listed and the same batch is to come. -/
theorem runsTo_rounds (rounds : Nat) :
    ∃ t : State, RunsTo (rounds * (batch.length + 1)) s t ∧ t.turns = [] ∧ t.later = .again batch := by
  induction rounds with
  | zero => exact ⟨s, by simpa using RunsTo.refl s, hturns, hlater⟩
  | succ rounds ih =>
    obtain ⟨m, hrun, hnone, hagain⟩ := ih
    obtain ⟨t, hround, hdrop, hagain'⟩ := runsTo_in_batch hnone hagain le_rfl
    rw [Nat.succ_mul]
    exact ⟨t, hrun.trans hround, hdrop.trans List.drop_length, hagain'⟩

end repeated

/-- Settles O55: the turns to come after the engine's turn, and after each turn of the batch it listed. -/
theorem hostAccessesMayGoOnForever : Obligations.HostAccessesMayGoOnForever := by
  intro s hturns
  obtain ⟨t, hstep, hbatch, hrest⟩ := step_lists_batch hturns
  refine ⟨fun batch hlater => ⟨⟨t, hstep, ?_, ?_⟩, fun k => runsTo_in_batch hturns hlater,
    runsTo_rounds hturns hlater⟩, fun n hlater => ⟨t, hstep, ?_, ?_⟩⟩
  · rw [hbatch, hlater, Later.batch]
  · rw [hrest, hlater, Later.rest]
  · rw [hbatch, hlater, Later.batch]
  · rw [hrest, hlater, Later.rest]

end Sys2Proof.Machine
end
